-- ==== Sys2Proof/Word.lean ====
section
/-!
DEFINITION. The words of the BLA21 frame codec block and the records of words the spec names: the frame
(30_encoding.md R30) and the fields of the two headers as an unpack gives them (R31, R32, R14).
-/

namespace Sys2Proof

/-- A byte, the unit of every byte sequence; bit 7 is its most significant bit (20_memory.md R24). -/
abbrev Byte := BitVec 8

/-- A 16-bit word: a half-precision word (R39) or a CRC register (R15). -/
abbrev U16 := BitVec 16

/-- A 32-bit word: a header container (R31, R32) or a binary32 word (R40). -/
abbrev U32 := BitVec 32

/-- A frame identifier, 29 bits (R5 `ID_BITS`, R30). -/
abbrev Ident := BitVec 29

/-- A signature: exactly 8 bytes, with no inner fields (R5 `SIG_LEN`, R49). -/
abbrev Signature := Vector Byte 8

/-- A frame: an identifier and its data bytes (R30). The declared length is `data.length`, so the invariant
"payload length as declared must equal the actual byte count" cannot fail; the bound of 15 bytes is
`Frame.wellFormed`. -/
structure Frame where
  id   : Ident
  data : List Byte
  deriving DecidableEq, Repr

/-- The fields of a broadcast header at their declared widths (R31, result bundle of `HUPB` in R14). -/
structure BroadcastHeader where
  priority    : BitVec 5
  serviceType : BitVec 16
  isService   : BitVec 1
  sourceId    : BitVec 7
  deriving DecidableEq, Repr

/-- The fields of a unicast header at their declared widths (R32, result bundle of `HUPU` in R14). -/
structure UnicastHeader where
  priority      : BitVec 5
  serviceType   : BitVec 8
  isRequest     : BitVec 1
  destinationId : BitVec 7
  isService     : BitVec 1
  sourceId      : BitVec 7
  deriving DecidableEq, Repr

end Sys2Proof
end

