-- ==== Sys2Proof/Syntax.lean ====
section
/-!
DEFINITION. The ten operations with their operand bundles (10_state.md R14, 30_encoding.md R44), and the command the
host presents: a 4-bit select code and the operand fields (R4, R43).
-/

namespace Sys2Proof

/-- The ten operations, one constructor per row of opcode_table.json, with exactly the operand fields of R14. A field
of R14 of type `uN` is a `BitVec N`: a value that does not fit cannot be presented. -/
inductive Instr where
  /-- `F16DEC bits : u16` (R52). -/
  | f16dec (bits : U16)
  /-- `F16ENC val : u32`, a binary32 word (R54). -/
  | f16enc (val : U32)
  /-- `CRCINIT` (R63). -/
  | crcinit
  /-- `CRCUPD b : u8` (R64). -/
  | crcupd (b : Byte)
  /-- `CRCRD` (R65). -/
  | crcrd
  /-- `SEGSEND id : u29, sig : 8 bytes, payload : byte sequence` (R70). -/
  | segsend (id : Ident) (sig : Signature) (payload : List Byte)
  /-- `HPKB`, each operand a u32 container (R80). -/
  | hpkb (priority serviceType isService sourceId : U32)
  /-- `HUPB w : u32` (R81). -/
  | hupb (w : U32)
  /-- `HPKU`, each operand a u32 container (R82). -/
  | hpku (priority serviceType isRequest destinationId isService sourceId : U32)
  /-- `HUPU w : u32` (R83). -/
  | hupu (w : U32)
  deriving DecidableEq, Repr

/-- The operand fields of all ten bundles of R14 side by side. The select code alone determines which of them an
operation has (R43); the others are not looked at. DESIGN CHOICE (assumption 1): the spec gives no bit encoding of
operands. Fields of one name and one type in two bundles of R14 (`w`; the header fields) are one field here. -/
structure Operands where
  bits          : U16
  val           : U32
  b             : Byte
  id            : Ident
  sig           : Signature
  payload       : List Byte
  priority      : U32
  serviceType   : U32
  isService     : U32
  sourceId      : U32
  isRequest     : U32
  destinationId : U32
  w             : U32
  deriving DecidableEq, Repr

/-- All operand fields zero or empty. -/
def Operands.zero : Operands :=
  { bits := 0#16, val := 0#32, b := 0#8, id := 0#29, sig := Vector.replicate 8 0#8, payload := [],
    priority := 0#32, serviceType := 0#32, isService := 0#32, sourceId := 0#32, isRequest := 0#32,
    destinationId := 0#32, w := 0#32 }

/-- A command as the host presents it, format `OP4` (R43): `op[3:0]` and the operand fields. -/
structure Command where
  op       : BitVec 4
  operands : Operands
  deriving DecidableEq, Repr

end Sys2Proof
end

