-- ==== Sys2Proof/WellFormed.lean ====
section
/-!
DEFINITION. Well-formed commands and frames. An `Instr` needs no check of its own: every operand's width, and the
length 8 of a signature, is in its type (10_state.md R14). What can be ill-formed is a `Command` (a reserved select
code, or a value in an operand field its operation does not have) and a `Frame` (over 15 data bytes).
-/

namespace Sys2Proof

/-- The operand fields the operation `op` has by the table of R14; every other field is set to zero. -/
def Operands.restrict (op : BitVec 4) (l : Operands) : Operands :=
  match op with
  | 0x0#4 => { Operands.zero with bits := l.bits }
  | 0x1#4 => { Operands.zero with val := l.val }
  | 0x3#4 => { Operands.zero with b := l.b }
  | 0x5#4 => { Operands.zero with id := l.id, sig := l.sig, payload := l.payload }
  | 0x6#4 => { Operands.zero with
      priority := l.priority, serviceType := l.serviceType, isService := l.isService, sourceId := l.sourceId }
  | 0x7#4 => { Operands.zero with w := l.w }
  | 0x8#4 => { Operands.zero with
      priority := l.priority, serviceType := l.serviceType, isRequest := l.isRequest,
      destinationId := l.destinationId, isService := l.isService, sourceId := l.sourceId }
  | 0x9#4 => { Operands.zero with w := l.w }
  | _ => Operands.zero

/-- A select code of one of the ten operations (R44); 0xA to 0xF are reserved (R45). -/
def Command.selectAssigned (c : Command) : Bool := decide (c.op.toNat < 10)

/-- Only the operand fields of the selected operation carry a value (R43: "The select code alone determines which
bundle fields exist"). -/
def Command.onlyItsOperands (c : Command) : Bool := decide (c.operands = c.operands.restrict c.op)

/-- A command in its one plain spelling: an assigned select code, and nothing in the fields it does not have. -/
def Command.wellFormed (c : Command) : Bool := c.selectAssigned && c.onlyItsOperands

/-- The frame type holds 0 to 15 data bytes (R30, R5 `FRAME_LEN_MAX`). -/
def Frame.wellFormed (f : Frame) : Bool := decide (f.data.length ≤ 15)

end Sys2Proof
end

