-- ==== Sys2Proof/Decode.lean ====
section
/-!
DEFINITION. The command decoder, total and rejecting by name (30_encoding.md R43 to R45), and the encoder written from
the same table.
-/

namespace Sys2Proof

/-- Why a command has no operation. Raised by `decode` alone; the machine answers it with `ILLEGAL_OP` and goes on
(60_exceptions.md R92), which is safe: it is the spec's own behaviour. -/
inductive DecodeError where
  /-- The select code is one of the reserved 0xA to 0xF (R45). -/
  | reservedSelect (op : BitVec 4)
  deriving DecidableEq, Repr

/-- R44: the select code names the operation, and the operation reads its own operand fields. -/
def decode (c : Command) : Except DecodeError Instr :=
  match c.op with
  | 0x0#4 => .ok (.f16dec c.operands.bits)
  | 0x1#4 => .ok (.f16enc c.operands.val)
  | 0x2#4 => .ok .crcinit
  | 0x3#4 => .ok (.crcupd c.operands.b)
  | 0x4#4 => .ok .crcrd
  | 0x5#4 => .ok (.segsend c.operands.id c.operands.sig c.operands.payload)
  | 0x6#4 => .ok (.hpkb c.operands.priority c.operands.serviceType c.operands.isService c.operands.sourceId)
  | 0x7#4 => .ok (.hupb c.operands.w)
  | 0x8#4 => .ok (.hpku c.operands.priority c.operands.serviceType c.operands.isRequest c.operands.destinationId
      c.operands.isService c.operands.sourceId)
  | 0x9#4 => .ok (.hupu c.operands.w)
  | _ => .error (.reservedSelect c.op)

/-- The select code of an operation (R44). -/
def selectCode : Instr → BitVec 4
  | .f16dec _ => 0x0#4
  | .f16enc _ => 0x1#4
  | .crcinit => 0x2#4
  | .crcupd _ => 0x3#4
  | .crcrd => 0x4#4
  | .segsend _ _ _ => 0x5#4
  | .hpkb _ _ _ _ => 0x6#4
  | .hupb _ => 0x7#4
  | .hpku _ _ _ _ _ _ => 0x8#4
  | .hupu _ => 0x9#4

/-- The operand fields of an operation, every field it does not have zero (R14). -/
def operandsOf : Instr → Operands
  | .f16dec bits => { Operands.zero with bits := bits }
  | .f16enc val => { Operands.zero with val := val }
  | .crcinit => Operands.zero
  | .crcupd b => { Operands.zero with b := b }
  | .crcrd => Operands.zero
  | .segsend id sig payload => { Operands.zero with id := id, sig := sig, payload := payload }
  | .hpkb priority serviceType isService sourceId =>
    { Operands.zero with
      priority := priority, serviceType := serviceType, isService := isService, sourceId := sourceId }
  | .hupb w => { Operands.zero with w := w }
  | .hpku priority serviceType isRequest destinationId isService sourceId =>
    { Operands.zero with
      priority := priority, serviceType := serviceType, isRequest := isRequest, destinationId := destinationId,
      isService := isService, sourceId := sourceId }
  | .hupu w => { Operands.zero with w := w }

/-- The command that presents an operation (R43). -/
def encode (i : Instr) : Command := { op := selectCode i, operands := operandsOf i }

/-- The command of one opcode-table word: the select code is its low 4 bits (mask 0xF in opcode_table.json), and the
operands, which the table gives no bits, are zero or empty (assumption 2). -/
def tableCommand (nbits w : Nat) : Command :=
  { op := BitVec.ofNat 4 (w % 2 ^ nbits), operands := Operands.zero }

/-- What the decoder reads from an opcode-table word. -/
def decodeTableWord (nbits w : Nat) : Option Instr :=
  match decode (tableCommand nbits w) with
  | .ok i => some i
  | .error _ => none

end Sys2Proof
end

