-- ==== Sys2Proof/Config.lean ====
section
/-!
DEFINITION. What the spec leaves to each block instance (00_scope.md R6, 10_state.md R19) and the one source of
free values (`draw`, R8). The parameters are plain data; State carries them in a field that no step changes
(assumption 6), so a statement over all states is a statement over all parameters.
-/

namespace Sys2Proof

/-- `CRC_PARAMS` (41_crc16.md R61): the five settings of the parametrised 16-bit CRC. -/
structure CrcParams where
  /-- `POLY`, without its x^16 term, most significant coefficient in bit 15. -/
  poly   : U16
  /-- `INIT`, the initial register value. -/
  init   : U16
  /-- `REFIN`: each input byte is bit-reversed first. -/
  refin  : Bool
  /-- `REFOUT`: the final register is bit-reversed before the final exclusive-or. -/
  refout : Bool
  /-- `XOROUT`, the final exclusive-or. -/
  xorout : U16
  deriving DecidableEq, Repr

/-- PRESUMED (assumption 7): the spec's default of `CRC_PARAMS` (R61, 92_eei_decisions.md D5), which the spec
itself marks as general knowledge. -/
def CrcParams.specDefault : CrcParams :=
  { poly := 0x1021#16, init := 0xFFFF#16, refin := false, refout := false, xorout := 0x0000#16 }

/-- The parameters fixed at instantiation (R6, R17, R19). -/
structure Params where
  /-- `CRC_PARAMS`. -/
  crc        : CrcParams
  /-- `PAYLOAD_MAX`: `none` is infinity (R6, D8). -/
  payloadMax : Option Nat
  deriving DecidableEq, Repr

/-- The parameters of `State.reset`: the default `CRC_PARAMS` (PRESUMED, assumption 7) and an infinite
`PAYLOAD_MAX` (DESIGN CHOICE, assumption 8: D8 says that infinity reproduces the document). -/
def Params.specDefault : Params := { crc := CrcParams.specDefault, payloadMax := none }

/-- `draw(u16)` (R8): an arbitrary 16-bit word under no law, one for each value of State's counter `draws`. It
has no body, so nothing can be proved of its values. Used for `crc_acc` after reset (R15, R18; assumption 9) and
for `F16ENC` of an infinity or a NaN (R55; assumption 11). -/
opaque Config.freeU16 : Nat → U16

end Sys2Proof
end

