-- ==== Sys2Proof/Machine/State.lean ====
section
/-!
DEFINITION. The state of the block (10_state.md R12, R13, R15, R18), the response (R14, R16, 60_exceptions.md R91), what
the host does to the block (70_reset_and_hazards.md R112), and the reasons a step can stop.
-/

namespace Sys2Proof.Machine

/-- The response status (R91). Its code 3 is never produced, so it has no constructor (93_implementation_defined.md
U11). -/
inductive Status where
  /-- `OK = 0`: the operation was performed. -/
  | ok
  /-- `ILLEGAL_OP = 1`: a reserved select code (R92). -/
  | illegalOp
  /-- `TOO_LONG = 2`: a `SEGSEND` whose payload is longer than `PAYLOAD_MAX` (R93). -/
  | tooLong
  deriving DecidableEq, Repr

/-- The result bundles of R14. -/
inductive Result where
  /-- No result field is defined: `CRCINIT`, `CRCUPD`, and every refusal (R8 `refuse`; assumption 12). -/
  | empty
  /-- `val : u32` of `F16DEC`, a binary32 word. -/
  | val (val : U32)
  /-- `bits : u16` of `F16ENC`. -/
  | bits (bits : U16)
  /-- `crc : u16` of `CRCRD`. -/
  | crc (crc : U16)
  /-- `frames` of `SEGSEND`. -/
  | frames (frames : List Frame)
  /-- `w : u32` of `HPKB` and `HPKU`. -/
  | packed (w : U32)
  /-- The four fields of `HUPB`. -/
  | broadcast (h : BroadcastHeader)
  /-- The six fields of `HUPU`. -/
  | unicast (h : UnicastHeader)
  deriving DecidableEq, Repr

/-- A response: a status and a result bundle (R4). -/
structure Response where
  status : Status
  result : Result
  deriving DecidableEq, Repr

/-- What the host sends the block (R112): a command, or a reset, which falls between two operations (R103). -/
inductive HostInput where
  | command (c : Command)
  | reset
  deriving DecidableEq, Repr

/-- The state of one block instance. The first three fields are the spec's state and all of it (R17, R18). The other
four are the MODEL'S: the spec calls them parameters, inputs and outputs of a step, and `step` has no other place for
them. -/
structure State where
  /-- `seq_ctr` (R12): the 5-bit frame-sequence counter. -/
  seqCtr : BitVec 5
  /-- `crc_acc` (R15): the 16-bit accumulator of the streaming checksum. -/
  crcAcc : U16
  /-- `tx_log` (R13): every frame emitted since reset, in emission order. -/
  txLog  : List Frame
  /-- `CRC_PARAMS` and `PAYLOAD_MAX` (R6, R17, R19), fixed for the life of the instance; the model's field
  (assumption 6). -/
  params : Params
  /-- What the host has still to send, first to be sent first (R112); the model's field (assumption 3). -/
  host   : List HostInput
  /-- The response to the last command since reset (R4, R16); the model's field (assumption 5). -/
  resp   : Option Response
  /-- How many free values have been drawn (R8 `draw`); the model's field (assumption 10). -/
  draws  : Nat
  deriving DecidableEq, Repr

/-- Why a step faults. There is NO constructor: no operation faults, traps or hangs (R7, R90, R111), and the source's
"never a fault" leaves nothing for one (93_implementation_defined.md, end of Part 1). -/
inductive Fault where
  deriving DecidableEq, Repr

/-- Why a step is refused by the MODEL. (The spec's own refusals `ILLEGAL_OP` and `TOO_LONG` are responses, after which
the block accepts the next command: they are next states, assumption 12.) -/
inductive Refusal where
  /-- The operation has no meaning in the model yet. Raised by an arm of `exec` only; no arm raises it now. Safe:
  nothing can be proved of a run past it. -/
  | notModelled (mnemonic : String)
  deriving DecidableEq, Repr

/-- An instance with parameters `p` right after its first reset (R18, R100), `acc` being the draw that stands for `crc_acc`
(R19): `seq_ctr` is 0 and `tx_log` is empty; no response has been given and the host has sent nothing. -/
def State.resetWith (p : Params) (acc : U16) : State :=
  { seqCtr := 0#5, crcAcc := acc, txLog := [], params := p, host := [], resp := none, draws := 1 }

/-- The machine right after reset, with the spec's default parameters (assumptions 7 and 8) and the first free value in
`crc_acc` (assumption 9). -/
def State.reset : State := State.resetWith Params.specDefault (Config.freeU16 0)

end Sys2Proof.Machine
end

