-- ==== Sys2Proof/Machine/Ops.lean ====
section
/-!
DEFINITION. The named operations over the state that the meanings share: answering, refusing, drawing, emitting frames,
the counter, the CRC register, reset, and taking the host's next input. There is no exception entry or return to model
(60_exceptions.md R90, R97): a refusal is the nearest thing, and it changes no state of the block.
-/

namespace Sys2Proof.Machine

/-- The value of a status in the 2-bit field of a response (R91). -/
def Status.code : Status → BitVec 2
  | .ok => 0#2
  | .illegalOp => 1#2
  | .tooLong => 2#2

/-- Give a response (R4). It is no state of the block (R16). -/
def respond (st : Status) (r : Result) (s : State) : State := { s with resp := some { status := st, result := r } }

/-- The response `OK` with a result bundle; `OK` is the status of every operation that is not refused (R8, R91). -/
def answer (r : Result) (s : State) : State := respond .ok r s

/-- `refuse S` (R8): the response has status `S` and no result, and no state is changed (R91, R92, R93). -/
def refuse (st : Status) (s : State) : State := respond st .empty s

/-- A command that decodes to no operation is refused with `ILLEGAL_OP` (R45, R92). -/
def refuseDecode (e : DecodeError) (s : State) : State :=
  match e with
  | .reservedSelect _ => refuse .illegalOp s

/-- `draw(u16)` (R8): the next free value, and the state with the model's counter of draws advanced. -/
def draw (s : State) : U16 × State := (Config.freeU16 s.draws, { s with draws := s.draws + 1 })

/-- `emit` of each frame of a list in index order (R8, R13, R70): one contiguous run at the end of `tx_log` (R27). -/
def emitAll (fs : List Frame) (s : State) : State := { s with txLog := s.txLog ++ fs }

/-- `seq_ctr <- (seq_ctr + 1) mod 32` (R12, R74): addition on 5 bits wraps from 31 to 0. -/
def advanceCounter (s : State) : State := { s with seqCtr := s.seqCtr + 1#5 }

/-- `crc_acc <- v` (R15). -/
def setCrcAcc (v : U16) (s : State) : State := { s with crcAcc := v }

/-- The host's reset (R100, R101): `seq_ctr` 0, `tx_log` empty, `crc_acc` unspecified (a fresh draw, assumption 9); the
parameters stay (R102). The model's response field is cleared (assumption 5). -/
def resetBlock (s : State) : State :=
  { (draw s).2 with seqCtr := 0#5, crcAcc := (draw s).1, txLog := [], resp := none }

/-- The host's next input and the state with it taken, `none` while the host sends nothing (R26, R112). -/
def nextInput (s : State) : Option (HostInput × State) :=
  match s.host with
  | [] => none
  | x :: rest => some (x, { s with host := rest })

/-- The host presents a command before what it has still to send. -/
def present (c : Command) (s : State) : State := { s with host := .command c :: s.host }

end Sys2Proof.Machine
end

