-- ==== Sys2Proof/Machine/Crc16.lean ====
section
/-!
DEFINITION. The CRC-16 generator (41_crc16.md R60 to R69): the step, the function `CRC16` and the operations `CRCINIT`,
`CRCUPD`, `CRCRD`, all over the parameters of the instance.
-/

namespace Sys2Proof.Machine

/-- One turn of the loop of `CRC_STEP` (R69): shift left, and apply `POLY` if bit 15 was set (R67). -/
def crcShift (p : CrcParams) (a : U16) : U16 :=
  if a &&& 0x8000#16 ≠ 0#16 then (a <<< 1) ^^^ p.poly else a <<< 1

/-- `n` turns of the loop. -/
def crcShifts (p : CrcParams) : Nat → U16 → U16
  | 0, a => a
  | n + 1, a => crcShifts p n (crcShift p a)

/-- `CRC_STEP(acc, b)` (R69). -/
def crcStep (p : CrcParams) (acc : U16) (b : Byte) : U16 :=
  let x : Byte := if p.refin then b.reverse else b
  crcShifts p 8 (acc ^^^ (x.setWidth 16 <<< 8))

/-- `CRC_FIN(a)` (R62). -/
def crcFin (p : CrcParams) (a : U16) : U16 := (if p.refout then a.reverse else a) ^^^ p.xorout

/-- The register after absorbing a byte sequence, first byte first. -/
def crcFold (p : CrcParams) (acc : U16) (bytes : List Byte) : U16 := bytes.foldl (crcStep p) acc

/-- `CRC16(bytes)` (R62). -/
def crc16 (p : CrcParams) (bytes : List Byte) : U16 := crcFin p (crcFold p p.init bytes)

/-- `CRCINIT` (R63). -/
def execCrcinit (s : State) : Host.Outcome State Fault Refusal :=
  .next (answer .empty (setCrcAcc s.params.crc.init s))

/-- `CRCUPD` (R64). -/
def execCrcupd (b : Byte) (s : State) : Host.Outcome State Fault Refusal :=
  .next (answer .empty (setCrcAcc (crcStep s.params.crc s.crcAcc b) s))

/-- `CRCRD` (R65): the register is read, not changed. -/
def execCrcrd (s : State) : Host.Outcome State Fault Refusal :=
  .next (answer (.crc (crcFin s.params.crc s.crcAcc)) s)

end Sys2Proof.Machine
end

