-- ==== Sys2Proof/Machine/F16Codec.lean ====
section
/-!
DEFINITION. The half-precision float codec (40_f16_codec.md R50 to R59): `F16DEC` and `F16ENC`.
-/

namespace Sys2Proof.Machine

/-- The sign bit of a binary32 word (R40). -/
def f32Sign (w : U32) : BitVec 1 := w.extractLsb' 31 1

/-- The biased exponent `E` of a binary32 word (R40). -/
def f32Exp (w : U32) : BitVec 8 := w.extractLsb' 23 8

/-- The fraction `F` of a binary32 word (R40). -/
def f32Frac (w : U32) : BitVec 23 := w.extractLsb' 0 23

/-- An infinity or a NaN: `val[30:23] == 255` (R54). -/
def f32NonFinite (w : U32) : Bool := f32Exp w == 255#8

/-- The magnitude of a finite binary32 word as a whole number of units of 2^-149 (R40): `F` when `E = 0`, else
`(2^23 + F) × 2^(E-1)`. Exact, so that `F16ENC` computes on whole numbers (D12; assumption 14). -/
def f32Units (w : U32) : Nat :=
  if f32Exp w = 0#8 then (f32Frac w).toNat
  else (2 ^ 23 + (f32Frac w).toNat) * 2 ^ ((f32Exp w).toNat - 1)

/-- The half-precision word of a sign, an exponent field and a fraction (R39). -/
def f16Pack (sign : BitVec 1) (exp : BitVec 5) (frac : BitVec 10) : U16 := sign ++ exp ++ frac

/-- R52 in the bit-level form R53: the binary32 word of a half-precision word. The test for zero is on the whole word, so
0x8000 is not zero; the exponent fields 0 and 31 are ordinary. -/
def f16Decode (bits : U16) : U32 :=
  if bits = 0#16 then 0#32
  else
    bits.extractLsb' 15 1 ++ ((bits.extractLsb' 10 5).setWidth 8 + 112#8) ++ (bits.extractLsb' 0 10 ++ 0#13)

/-- R54 for a finite operand, on whole numbers of units `u = m × 2^149`: `e = floor(log2(m))` is `log2 u - 149`, the
quotient `trunc(1024 × (m / 2^e - 1))` is `1024 u div 2^(log2 u) - 1024`, and the exponent field is `(e + 15) mod 32`.
Zero of either sign gives 0x0000 (D10). -/
def f16Encode (w : U32) : U16 :=
  let u := f32Units w
  if u = 0 then 0#16
  else
    let e : Int := (Nat.log2 u : Int) - 149
    let q := 1024 * u / 2 ^ Nat.log2 u - 1024
    f16Pack (f32Sign w) (BitVec.ofNat 5 ((e + 15) % 32).toNat) (BitVec.ofNat 10 q)

/-- `F16DEC` (R52). -/
def execF16dec (bits : U16) (s : State) : Host.Outcome State Fault Refusal := .next (answer (.val (f16Decode bits)) s)

/-- `F16ENC` (R54). For an infinity or a NaN the word is a fresh draw, and the status is `OK` (R55; assumption 11). -/
def execF16enc (val : U32) (s : State) : Host.Outcome State Fault Refusal :=
  if f32NonFinite val then .next (answer (.bits (draw s).1) (draw s).2)
  else .next (answer (.bits (f16Encode val)) s)

end Sys2Proof.Machine
end

