-- ==== Sys2Proof/Machine/Operands.lean ====
section
/-!
DEFINITION. How operands are read and words assembled: fields of a header container (30_encoding.md R41, R42), slices of a
byte sequence (00_scope.md R8), the identifier carried by a packed header (10_state.md R14), and a signature held as an
integer (20_memory.md R23).
-/

namespace Sys2Proof.Machine

/-- A field of declared width `n` at position `p` is assembled into the container as `(v & (2^n - 1)) << p` (R41). -/
def putField (n p : Nat) (v : U32) : U32 := (v &&& BitVec.ofNat 32 (2 ^ n - 1)) <<< p

/-- A field of declared width `n` at position `p` is extracted from a container as `(w >> p) & (2^n - 1)` (R42), an
`n`-bit value. -/
def getField (n p : Nat) (w : U32) : BitVec n := w.extractLsb' p n

/-- `s[a..b)`: the bytes of indices `a` to `b - 1`, empty if `a ≥ b` (R8). -/
def slice (bytes : List Byte) (a b : Nat) : List Byte := (bytes.drop a).take (b - a)

/-- The identifier a host connects to `SEGSEND` from a packed header: `id = w[28:0]` (R14, D9). -/
def identOfHeader (w : U32) : Ident := w.extractLsb' 0 29

/-- The signature a host holds as a 64-bit integer `S`: `sig[j] = S[8j+7 : 8j]` (R23, D15). -/
def signatureOfInt (S : BitVec 64) : Signature := Vector.ofFn fun j => S.extractLsb' (8 * j.val) 8

end Sys2Proof.Machine
end

