-- ==== Sys2Proof/Machine/HeaderCodec.lean ====
section
/-!
DEFINITION. The header bit-packer (43_header_codec.md R80 to R87, 30_encoding.md R31 to R33): `HPKB`, `HUPB`, `HPKU`, `HUPU`.
-/

namespace Sys2Proof.Machine

/-- The broadcast layout packed (R31, R80): every operand masked to its field's width. -/
def packBroadcast (priority serviceType isService sourceId : U32) : U32 :=
  putField 5 24 priority ||| putField 16 8 serviceType ||| putField 1 7 isService ||| putField 7 0 sourceId

/-- The broadcast layout unpacked (R81); bits [31:29] take no part (R42, R46). -/
def unpackBroadcast (w : U32) : BroadcastHeader :=
  { priority := getField 5 24 w, serviceType := getField 16 8 w, isService := getField 1 7 w,
    sourceId := getField 7 0 w }

/-- The unicast layout packed (R32, R82): every operand masked to its field's width. -/
def packUnicast (priority serviceType isRequest destinationId isService sourceId : U32) : U32 :=
  putField 5 24 priority ||| putField 8 16 serviceType ||| putField 1 15 isRequest ||| putField 7 8 destinationId |||
    putField 1 7 isService ||| putField 7 0 sourceId

/-- The unicast layout unpacked (R83); bits [31:29] take no part (R42, R46). -/
def unpackUnicast (w : U32) : UnicastHeader :=
  { priority := getField 5 24 w, serviceType := getField 8 16 w, isRequest := getField 1 15 w,
    destinationId := getField 7 8 w, isService := getField 1 7 w, sourceId := getField 7 0 w }

/-- `HPKB` (R80). -/
def execHpkb (priority serviceType isService sourceId : U32) (s : State) : Host.Outcome State Fault Refusal :=
  .next (answer (.packed (packBroadcast priority serviceType isService sourceId)) s)

/-- `HUPB` (R81). -/
def execHupb (w : U32) (s : State) : Host.Outcome State Fault Refusal :=
  .next (answer (.broadcast (unpackBroadcast w)) s)

/-- `HPKU` (R82). -/
def execHpku (priority serviceType isRequest destinationId isService sourceId : U32) (s : State) :
    Host.Outcome State Fault Refusal :=
  .next (answer (.packed (packUnicast priority serviceType isRequest destinationId isService sourceId)) s)

/-- `HUPU` (R83). -/
def execHupu (w : U32) (s : State) : Host.Outcome State Fault Refusal := .next (answer (.unicast (unpackUnicast w)) s)

end Sys2Proof.Machine
end

