-- ==== Sys2Proof/Machine/Segmentation.lean ====
section
/-!
DEFINITION. The frame segmentation engine (42_segmentation.md R70 to R79, 30_encoding.md R34 to R38): `SEGSEND`.
-/

namespace Sys2Proof.Machine

/-- The control byte (R34): start in bit 7, end in bit 6, toggle in bit 5, the counter in bits [4:0]. These bits are output
data, no flags held by the block (R16). -/
def controlByte (start isLast toggle : Bool) (t : BitVec 5) : Byte :=
  (if start then 0x80#8 else 0#8) ||| (if isLast then 0x40#8 else 0#8) ||| (if toggle then 0x20#8 else 0#8) |||
    t.setWidth 8

/-- `SINGLE(id, payload, t)` (R71): one frame with start and end set; no checksum. -/
def segSingle (id : Ident) (payload : List Byte) (t : BitVec 5) : List Frame :=
  [{ id := id, data := payload ++ [controlByte true true false t] }]

/-- `n = (L + 8) div 7`, the number of frames of a multi-frame send (R72). -/
def segCount (L : Nat) : Nat := (L + 8) / 7

/-- Frame 0 of a multi-frame send (R72, R37): the checksum least significant byte first (R21), `payload[0..5)`, and a
control byte with start alone. -/
def segFirst (id : Ident) (c : U16) (payload : List Byte) (t : BitVec 5) : Frame :=
  { id := id
    data := [c.extractLsb' 0 8, c.extractLsb' 8 8] ++ slice payload 0 5 ++ [controlByte true false false t] }

/-- Frame `i ≥ 1` of a multi-frame send of `n` frames (R72, R38): `payload[lo..hi)` and a control byte with end on the last
frame and toggle on odd indices. -/
def segNext (id : Ident) (payload : List Byte) (t : BitVec 5) (n i : Nat) : Frame :=
  let lo := 5 + 7 * (i - 1)
  let hi := min payload.length (lo + 7)
  { id := id
    data := slice payload lo hi ++ [controlByte false (decide (i = n - 1)) (decide (i % 2 = 1)) t] }

/-- `MULTI(id, sig, payload, t)` (R72): the checksum is over the signature and the whole payload (R60, R23). -/
def segMulti (p : CrcParams) (id : Ident) (sig : Signature) (payload : List Byte) (t : BitVec 5) : List Frame :=
  let c := crc16 p (sig.toList ++ payload)
  let n := segCount payload.length
  segFirst id c payload t :: (List.range (n - 1)).map fun j => segNext id payload t n (j + 1)

/-- The frames of one send (R70): one frame up to 7 payload bytes, else several. -/
def segFrames (p : CrcParams) (id : Ident) (sig : Signature) (payload : List Byte) (t : BitVec 5) : List Frame :=
  if payload.length ≤ 7 then segSingle id payload t else segMulti p id sig payload t

/-- `L > PAYLOAD_MAX` (R78), never true of an infinite `PAYLOAD_MAX`. -/
def payloadTooLong (p : Params) (L : Nat) : Bool :=
  match p.payloadMax with
  | none => false
  | some m => decide (m < L)

/-- `SEGSEND` (R70): refused with `TOO_LONG` and no other effect (R78, R93), or the frames are emitted and returned and the
counter advances by one (R74). -/
def execSegsend (id : Ident) (sig : Signature) (payload : List Byte) (s : State) :
    Host.Outcome State Fault Refusal :=
  if payloadTooLong s.params payload.length then .next (refuse .tooLong s)
  else
    let fs := segFrames s.params.crc id sig payload s.seqCtr
    .next (answer (.frames fs) (advanceCounter (emitAll fs s)))

end Sys2Proof.Machine
end

