-- ==== Sys2Proof/Machine/Dispatch.lean ====
section
/-! DEFINITION. One arm per operation (30_encoding.md R44), each one call of its meaning. -/

namespace Sys2Proof.Machine

def exec (i : Instr) (s : State) : Host.Outcome State Fault Refusal :=
  match i with
  | .f16dec bits => Sys2Proof.Machine.execF16dec bits s
  | .f16enc val => Sys2Proof.Machine.execF16enc val s
  | .crcinit => Sys2Proof.Machine.execCrcinit s
  | .crcupd b => Sys2Proof.Machine.execCrcupd b s
  | .crcrd => Sys2Proof.Machine.execCrcrd s
  | .segsend id sig payload => Sys2Proof.Machine.execSegsend id sig payload s
  | .hpkb priority serviceType isService sourceId => Sys2Proof.Machine.execHpkb priority serviceType isService sourceId s
  | .hupb w => Sys2Proof.Machine.execHupb w s
  | .hpku priority serviceType isRequest destinationId isService sourceId => Sys2Proof.Machine.execHpku priority serviceType isRequest destinationId isService sourceId s
  | .hupu w => Sys2Proof.Machine.execHupu w s

end Sys2Proof.Machine
end

