-- ==== Sys2Proof/Machine/Step.lean ====
section
/-!
DEFINITION. One step: the block takes the host's next input and carries it out, or stays idle (00_scope.md R3, 20_memory.md
R26, 60_exceptions.md R99, 70_reset_and_hazards.md R103, R112).
-/

namespace Sys2Proof.Machine

/-- The block takes the host's next input. A command that decodes is executed; one that does not is refused with
`ILLEGAL_OP` and the block goes on (R92); a reset falls between two operations (R103). While the host sends nothing the
block is idle (R99; assumption 4). -/
def step (s : State) : Host.Outcome State Fault Refusal :=
  match nextInput s with
  | none => .next s
  | some (.reset, s') => .next (resetBlock s')
  | some (.command c, s') =>
    match decode c with
    | .ok i => exec i s'
    | .error e => .next (refuseDecode e s')

/-- `s` with the command of an opcode-table word presented as the host's next input (assumptions 2 and 3). -/
def State.withFetchWord (s : State) (nbits w : Nat) : State := present (tableCommand nbits w) s

end Sys2Proof.Machine
end

