-- ==== Sys2Proof/Machine/Pseudo.lean ====
section
/-!
DEFINITION. The pseudo-operations of 30_encoding.md R48: abbreviations for sequences of real operations that a host issues.
They have no select code and no constructor.
-/

namespace Sys2Proof.Machine

/-- `CRC16 [b0, ...]`: `CRCINIT`; `CRCUPD` of each byte; `CRCRD`. -/
def pseudoCrc16 (bytes : List Byte) : List Instr := .crcinit :: (bytes.map Instr.crcupd ++ [.crcrd])

/-- `SEGSEND` with `id = w[28:0]` of the packed header `w` that the operation before it returned (R14, R48). -/
def sendPacked (sig : Signature) (payload : List Byte) (o : Host.Outcome State Fault Refusal) :
    Host.Outcome State Fault Refusal :=
  match o with
  | .next s =>
    match s.resp with
    | some { status := .ok, result := .packed w } => exec (.segsend (identOfHeader w) sig payload) s
    | _ => .next s
  | .fault r => .fault r
  | .refused r => .refused r

/-- `SENDB`: `HPKB ... -> w`; `SEGSEND id=w[28:0], sig, payload`. -/
def pseudoSendB (priority serviceType isService sourceId : U32) (sig : Signature) (payload : List Byte) (s : State) :
    Host.Outcome State Fault Refusal :=
  sendPacked sig payload (exec (.hpkb priority serviceType isService sourceId) s)

/-- `SENDU`: `HPKU ... -> w`; `SEGSEND id=w[28:0], sig, payload`. -/
def pseudoSendU (priority serviceType isRequest destinationId isService sourceId : U32) (sig : Signature)
    (payload : List Byte) (s : State) : Host.Outcome State Fault Refusal :=
  sendPacked sig payload (exec (.hpku priority serviceType isRequest destinationId isService sourceId) s)

end Sys2Proof.Machine
end

