-- ==== Sys2Proof/Safety.lean ====
section
/-!
DEFINITION. The terms claims are stated in: the real value of a float word (30_encoding.md R40, 40_f16_codec.md R51), the
parts of a control byte as a receiver reads them (R34, R47), which payloads a send admits (R78), the history of sends
(70_reset_and_hazards.md R106), and a run of commands.
-/

namespace Sys2Proof.Safety

open Sys2Proof.Machine

/-- The sign of a sign bit: +1 for 0, -1 for 1. -/
def signOf (b : BitVec 1) : ℚ := if b = 0#1 then 1 else -1

/-- The real value of a finite binary32 word (R40). -/
def f32Value (w : U32) : ℚ :=
  if f32Exp w = 0#8 then signOf (f32Sign w) * (2 : ℚ) ^ (-149 : ℤ) * ((f32Frac w).toNat : ℚ)
  else signOf (f32Sign w) * (2 : ℚ) ^ (((f32Exp w).toNat : ℤ) - 127) * (1 + ((f32Frac w).toNat : ℚ) / 2 ^ 23)

/-- A finite binary32 word (R40). -/
abbrev F32Finite (w : U32) : Prop := f32Exp w ≠ 255#8

/-- `H16VAL(bits)` (R51). -/
def h16Value (bits : U16) : ℚ :=
  if bits = 0#16 then 0
  else signOf (bits.extractLsb' 15 1) * (2 : ℚ) ^ (((bits.extractLsb' 10 5).toNat : ℤ) - 15) *
    (1 + ((bits.extractLsb' 0 10).toNat : ℚ) / 1024)

/-- The positive values whose word is 0x0000 (R58): `[2^(-15+32j), 2^(-15+32j) × 1025/1024)` for some integer `j`. -/
def ZeroCollision (v : ℚ) : Prop :=
  ∃ j : ℤ, (2 : ℚ) ^ (-15 + 32 * j) ≤ v ∧ v < (2 : ℚ) ^ (-15 + 32 * j) * (1025 / 1024)

/-- `PAYLOAD_MAX` admits a payload of `L` bytes (R78). -/
def Admits (p : Params) (L : Nat) : Prop := ∀ m, p.payloadMax = some m → L ≤ m

/-- The control byte of a frame: its last data byte (R34). -/
def control (f : Frame) : Byte := f.data.getLastD 0#8

/-- The start bit of a frame's control byte. -/
def starts (f : Frame) : Bool := (control f).getLsbD 7

/-- The end bit of a frame's control byte. -/
def ends (f : Frame) : Bool := (control f).getLsbD 6

/-- The toggle bit of a frame's control byte. -/
def toggles (f : Frame) : Bool := (control f).getLsbD 5

/-- The counter a frame carries, bits [4:0] of its control byte. -/
def counter (f : Frame) : BitVec 5 := (control f).extractLsb' 0 5

/-- The data bytes of a frame before its control byte. -/
def body (f : Frame) : List Byte := f.data.dropLast

/-- The frames of a log that open a send (R47). -/
def openings (log : List Frame) : List Frame := log.filter starts

/-- The history of sends since reset: the k-th send of the log carries the counter `k mod 32` (R106), and `seq_ctr` holds
the number of sends so far modulo 32 (R12, R74). -/
def CountsSends (s : State) : Prop :=
  (openings s.txLog).map counter = (List.range (openings s.txLog).length).map (BitVec.ofNat 5) ∧
    s.seqCtr = BitVec.ofNat 5 (openings s.txLog).length

/-- Every frame the block has emitted has 1 to 8 data bytes (R30, R75). -/
def FramesFit (s : State) : Prop := ∀ f ∈ s.txLog, 1 ≤ f.data.length ∧ f.data.length ≤ 8

/-- The host's input that presents an operation. -/
def commandOf (i : Instr) : HostInput := .command (encode i)

/-- The bytes a list of operations feeds to `crc_acc`. -/
def updBytes : List Instr → List Byte
  | [] => []
  | .crcupd b :: is => b :: updBytes is
  | _ :: is => updBytes is

end Sys2Proof.Safety
end

