-- ==== Sys2Proof/Certificates/Slice0/Obligations.lean ====
section
/-!
DEFINITION. The statements for the provers, from the numbered rules of spec/, family by family. A statement of an operation's
result gives the whole next state, `{ s with ... }`, so that it is the frame of the operation as well: what is not named
after `with` is unchanged.
-/

open Sys2Proof Sys2Proof.Machine Sys2Proof.Safety

/-! ## Encoding -/

/-- R44: "The operation select codes, in the order of the document's §4." Every 4-bit value names one of the ten operations,
which reads its own operand fields, or is reserved. -/
def Obligations.SelectCodesNameTheTenOperations : Prop :=
  ∀ l : Operands,
    decode ⟨0x0#4, l⟩ = .ok (.f16dec l.bits) ∧
    decode ⟨0x1#4, l⟩ = .ok (.f16enc l.val) ∧
    decode ⟨0x2#4, l⟩ = .ok .crcinit ∧
    decode ⟨0x3#4, l⟩ = .ok (.crcupd l.b) ∧
    decode ⟨0x4#4, l⟩ = .ok .crcrd ∧
    decode ⟨0x5#4, l⟩ = .ok (.segsend l.id l.sig l.payload) ∧
    decode ⟨0x6#4, l⟩ = .ok (.hpkb l.priority l.serviceType l.isService l.sourceId) ∧
    decode ⟨0x7#4, l⟩ = .ok (.hupb l.w) ∧
    decode ⟨0x8#4, l⟩ =
      .ok (.hpku l.priority l.serviceType l.isRequest l.destinationId l.isService l.sourceId) ∧
    decode ⟨0x9#4, l⟩ = .ok (.hupu l.w) ∧
    ∀ op : BitVec 4, 10 ≤ op.toNat → decode ⟨op, l⟩ = .error (.reservedSelect op)

/-- R43, R44: every operation, with every operand value, is presented by one well-formed command that decodes to it, and
every well-formed command is the command of the operation it decodes to. What the fields of a command other than the
operation's own do is the model's choice (assumption 1). -/
def Obligations.DecodeAndEncodeAgree : Prop :=
  (∀ i : Instr, (encode i).wellFormed = true ∧ decode (encode i) = .ok i) ∧
    ∀ c : Command, c.wellFormed = true → ∃ i : Instr, decode c = .ok i ∧ encode i = c

/-- Select codes of opcode_table.json written out bit by bit (the row's "encoding") decode to their rows' operations, and
one reserved word to none. -/
def Obligations.WrittenOutWordsDecode : Prop :=
  decodeTableWord 8 0b0000 = some (.f16dec 0#16) ∧
    decodeTableWord 8 0b0001 = some (.f16enc 0#32) ∧
    decodeTableWord 8 0b0011 = some (.crcupd 0#8) ∧
    decodeTableWord 8 0b0101 = some (.segsend 0#29 (Vector.replicate 8 0#8) []) ∧
    decodeTableWord 8 0b1001 = some (.hupu 0#32) ∧
    decodeTableWord 8 0b1010 = none

/-! ## The machine -/

/-- R3, R26: when the host's next input is a command that decodes to `i`, the step is `exec i` in the state with that input
taken. -/
def Obligations.StepRunsTheDecodedOperation : Prop :=
  ∀ (s : State) (c : Command) (rest : List HostInput) (i : Instr),
    s.host = .command c :: rest → decode c = .ok i → step s = exec i { s with host := rest }

/-- R91, R92, R93, R95: "A command meets at most one refusal". The response to a command is `ILLEGAL_OP` exactly for a reserved
select code and `TOO_LONG` exactly for a `SEGSEND` whose payload is longer than `PAYLOAD_MAX`; a refusal has no result and
leaves the state as it was; the status codes are 0, 1 and 2. -/
def Obligations.ACommandMeetsAtMostOneRefusal : Prop :=
  (Status.ok.code = 0#2 ∧ Status.illegalOp.code = 1#2 ∧ Status.tooLong.code = 2#2) ∧
    ∀ (s : State) (c : Command) (rest : List HostInput), s.host = .command c :: rest →
      ∃ (t : State) (r : Response), step s = .next t ∧ t.resp = some r ∧ r.status.code ≠ 3#2 ∧
        (r.status = .illegalOp ↔ 10 ≤ c.op.toNat) ∧
        (r.status = .tooLong ↔ c.op = 0x5#4 ∧ ¬ Admits s.params c.operands.payload.length) ∧
        (r.status ≠ .ok → t = { s with host := rest, resp := some ⟨r.status, .empty⟩ })

/-- R100, R101, R102, R103: a host's reset sets `seq_ctr` to 0, empties `tx_log`, leaves some value in `crc_acc` and keeps the
parameters. That the reset clears the model's response field and advances its counter of draws is the model's choice
(assumptions 5 and 10). -/
def Obligations.HostResetRestartsTheSession : Prop :=
  ∀ (s : State) (rest : List HostInput), s.host = .reset :: rest →
    ∃ v : U16, step s = .next { s with
      seqCtr := 0#5, crcAcc := v, txLog := [], resp := none, draws := s.draws + 1, host := rest }

/-- R18: `seq_ctr` is 0 and `tx_log` is empty after reset, whatever the parameters and whatever draw `crc_acc` holds. -/
def Obligations.ResetValues : Prop :=
  (∀ (p : Params) (acc : U16), (State.resetWith p acc).seqCtr = 0#5 ∧ (State.resetWith p acc).txLog = [] ∧
    (State.resetWith p acc).crcAcc = acc ∧ (State.resetWith p acc).params = p) ∧
    State.reset.seqCtr = 0#5 ∧ State.reset.txLog = []

/-- R7, R90, R111: "Every operation completes". No step faults, and the model refuses none. That the idle step
and the spec's own refusals are next states is the model's form (assumptions 4 and 12). -/
def Obligations.EveryStepAnswersANextState : Prop := ∀ s : State, ∃ t : State, step s = .next t

/-- R26, R112: a step takes exactly the host's next input and no other; with none (assumption 4) the block is idle. -/
def Obligations.AStepTakesOneHostInput : Prop :=
  ∀ s t : State, step s = .next t → t.host = s.host.tail ∧ (s.host = [] → t = s)

/-- R17, R19, R102: the parameters are fixed for the life of an instance. The field that holds them is the model's
(assumption 6). -/
def Obligations.ParametersNeverChange : Prop := ∀ s t : State, step s = .next t → t.params = s.params

/-- R12, R101: `seq_ctr` changes only by a `SEGSEND`, and then by one modulo 32, or to 0 by the host's reset. -/
def Obligations.OnlySendsAndResetChangeTheCounter : Prop :=
  ∀ s t : State, step s = .next t →
    t.seqCtr = s.seqCtr ∨
    (∃ rest, s.host = .reset :: rest ∧ t.seqCtr = 0#5) ∨
    ∃ c rest, s.host = .command c :: rest ∧ c.op = 0x5#4 ∧ t.seqCtr.toNat = (s.seqCtr.toNat + 1) % 32

/-- R13: `tx_log` is append-only between resets, what is appended is the `frames` result of a `SEGSEND`, and nothing else
changes it. -/
def Obligations.TheLogOnlyGrowsBySends : Prop :=
  ∀ s t : State, step s = .next t →
    t.txLog = s.txLog ∨
    (∃ rest, s.host = .reset :: rest ∧ t.txLog = []) ∨
    ∃ c rest fs, s.host = .command c :: rest ∧ c.op = 0x5#4 ∧ t.txLog = s.txLog ++ fs ∧
      t.resp = some ⟨.ok, .frames fs⟩

/-- R13: `tx_log` is "read by no operation": with another log before it, and the same draw (assumption 10), an operation gives the
same response, the same registers and the same appended frames. -/
def Obligations.NoOperationReadsTheLog : Prop :=
  ∀ (i : Instr) (s : State) (log : List Frame), ∃ (t : State) (fs : List Frame),
    exec i s = .next t ∧ t.txLog = s.txLog ++ fs ∧
      exec i { s with txLog := log } = .next { t with txLog := log ++ fs }

/-- R15: `crc_acc` is written by `CRCINIT` and `CRCUPD` only, and by the host's reset. -/
def Obligations.OnlyCrcOperationsAndResetWriteTheAccumulator : Prop :=
  ∀ s t : State, step s = .next t → t.crcAcc ≠ s.crcAcc →
    (∃ rest, s.host = .reset :: rest) ∨
    ∃ c rest, s.host = .command c :: rest ∧ (c.op = 0x2#4 ∨ c.op = 0x3#4)

/-- R25: "repeating one with the same operands gives the same response and the same state", for the eight pure operations;
`F16ENC` of a finite operand. -/
def Obligations.PureOperationsAreIdempotent : Prop :=
  ∀ (i : Instr) (s t : State), (∀ b, i ≠ .crcupd b) → (∀ id sig pl, i ≠ .segsend id sig pl) →
    (∀ w, i = .f16enc w → F32Finite w) → exec i s = .next t → exec i t = .next t

/-- R106, R12, R74: the k-th completed send carries `k mod 32` in its frames' opening control byte, and `seq_ctr` counts the
sends; every step keeps this. -/
def Obligations.EveryStepKeepsTheSendCount : Prop :=
  ∀ s t : State, CountsSends s → step s = .next t → CountsSends t

/-- R75: "Every frame `SEGSEND` produces has between 1 and 8 data bytes"; every step keeps this of the whole log, so every frame
is a well-formed Frame (R30). -/
def Obligations.EveryStepKeepsFramesWithinEightBytes : Prop :=
  (∀ s t : State, FramesFit s → step s = .next t → FramesFit t) ∧
    ∀ s : State, FramesFit s → ∀ f ∈ s.txLog, f.wellFormed = true

/-- R18, R106: the two invariants hold right after reset, whatever the parameters and the draw in `crc_acc`. -/
def Obligations.ResetMeetsTheInvariants : Prop :=
  ∀ (p : Params) (acc : U16), CountsSends (State.resetWith p acc) ∧ FramesFit (State.resetWith p acc)

/-! ## Float codec -/

/-- R52 (with R51, R40): `F16DEC` has select code 0x0, and returns the binary32 word whose value is exactly `H16VAL(bits)`, and
which is +0.0 for `bits == 0`; no state is written. -/
def Obligations.F16decReturnsTheExactValue : Prop :=
  (∀ l : Operands, decode ⟨0x0#4, l⟩ = .ok (.f16dec l.bits)) ∧
    ∀ (bits : U16) (s : State), ∃ val : U32,
      exec (.f16dec bits) s = .next { s with resp := some ⟨.ok, .val val⟩ } ∧
        F32Finite val ∧ f32Value val = h16Value bits ∧ (bits = 0#16 → val = 0#32)

/-- R53: the bit-level form of `F16DEC`. "The result is never a subnormal, an infinity, a NaN or −0.0". -/
def Obligations.F16decBitLevelForm : Prop :=
  ∀ (bits : U16) (s : State), ∃ val : U32,
    exec (.f16dec bits) s = .next { s with resp := some ⟨.ok, .val val⟩ } ∧
      (bits = 0#16 → val = 0#32) ∧
      (bits ≠ 0#16 →
        val = ((bits.extractLsb' 15 1).setWidth 32 <<< 31) |||
            (((bits.extractLsb' 10 5).setWidth 32 + 112#32) <<< 23) ||| ((bits.extractLsb' 0 10).setWidth 32 <<< 13) ∧
          112 ≤ (f32Exp val).toNat ∧ (f32Exp val).toNat ≤ 143)

/-- R54: `F16ENC` has select code 0x1 and writes no state of the block. Zero of either sign gives 0x0000; any other finite operand gives the sign, the exponent
`floor(log2|v|)` plus 15 modulo 32 and the truncated fraction, both exact; an infinity or a NaN gives some word, R54's draw. That
`d`, the count of draws after it, is a field of the state is the model's form of a draw (assumptions 10 and 11). -/
def Obligations.F16encTruncatesExactly : Prop :=
  (∀ l : Operands, decode ⟨0x1#4, l⟩ = .ok (.f16enc l.val)) ∧
    ∀ (val : U32) (s : State),
      (f32Exp val = 255#8 → ∃ (b : U16) (d : ℕ),
        exec (.f16enc val) s = .next { s with resp := some ⟨.ok, .bits b⟩, draws := d }) ∧
      (f32Exp val ≠ 255#8 → ∃ b : U16, exec (.f16enc val) s = .next { s with resp := some ⟨.ok, .bits b⟩ } ∧
        (f32Value val = 0 → b = 0#16) ∧
        (f32Value val ≠ 0 → ∃ (e : ℤ) (q : ℕ),
          (2 : ℚ) ^ e ≤ |f32Value val| ∧ |f32Value val| < (2 : ℚ) ^ (e + 1) ∧
          (q : ℚ) ≤ 1024 * (|f32Value val| / (2 : ℚ) ^ e - 1) ∧
          1024 * (|f32Value val| / (2 : ℚ) ^ e - 1) < (q : ℚ) + 1 ∧
          b.toNat = (if f32Value val < 0 then 1 else 0) * 2 ^ 15 + ((e + 15) % 32).toNat * 2 ^ 10 + q))

/-- R55: an infinity or a NaN gives a draw, with status `OK` and no state change. That the draw is the model's free value of the
counter `draws`, which then advances, is the model's form of it (assumptions 10 and 11). -/
def Obligations.F16encOfNonFiniteIsADraw : Prop :=
  ∀ (val : U32) (s : State), f32Exp val = 255#8 →
    exec (.f16enc val) s =
      .next { s with resp := some ⟨.ok, .bits (Config.freeU16 s.draws)⟩, draws := s.draws + 1 }

/-- R56: the bit-level form of `F16ENC` for finite operands, normal and subnormal. -/
def Obligations.F16encBitLevelForm : Prop :=
  ∀ (val : U32) (s : State), f32Exp val ≠ 255#8 →
    ∃ b : U16, exec (.f16enc val) s = .next { s with resp := some ⟨.ok, .bits b⟩ } ∧
      (f32Exp val = 0#8 → f32Frac val = 0#23 → b = 0#16) ∧
      (1 ≤ (f32Exp val).toNat →
        b.toNat = (f32Sign val).toNat * 2 ^ 15 + ((f32Exp val).toNat + 16) % 32 * 2 ^ 10 +
          (f32Frac val).toNat / 2 ^ 13) ∧
      ∀ k : ℕ, f32Exp val = 0#8 → 2 ^ k ≤ (f32Frac val).toNat → (f32Frac val).toNat < 2 ^ (k + 1) →
        b.toNat = (f32Sign val).toNat * 2 ^ 15 + (k + 26) % 32 * 2 ^ 10 +
          if 10 ≤ k then ((f32Frac val).toNat - 2 ^ k) / 2 ^ (k - 10)
          else ((f32Frac val).toNat - 2 ^ k) * 2 ^ (10 - k)

/-- R57: "Range wrap": two finite nonzero operands whose values differ by a power of 2^32 encode to the same word. -/
def Obligations.F16encWrapsTheExponent : Prop :=
  ∀ (v w : U32) (j : ℤ) (s : State), F32Finite v → F32Finite w → f32Value v ≠ 0 →
    f32Value w = f32Value v * (2 : ℚ) ^ (32 * j) → exec (.f16enc w) s = exec (.f16enc v) s

/-- R58: the word 0x0000 is produced by zero and by the positive collision intervals alone, and 0x8000 by their negative
counterparts alone; they decode to 0.0 and to -2^-15. -/
def Obligations.F16ZeroCollisionIsOneSided : Prop :=
  ∀ (val : U32) (s : State), F32Finite val →
    (exec (.f16enc val) s = .next { s with resp := some ⟨.ok, .bits 0x0000#16⟩ } ↔
      f32Value val = 0 ∨ ZeroCollision (f32Value val)) ∧
    (exec (.f16enc val) s = .next { s with resp := some ⟨.ok, .bits 0x8000#16⟩ } ↔
      ZeroCollision (-f32Value val)) ∧
    exec (.f16dec 0x0000#16) s = .next { s with resp := some ⟨.ok, .val 0x00000000#32⟩ } ∧
    exec (.f16dec 0x8000#16) s = .next { s with resp := some ⟨.ok, .val 0xB8000000#32⟩ }

/-- R59 (a): `F16ENC(F16DEC(b)) = b` for every 16-bit word. -/
def Obligations.F16DecodeThenEncodeIsIdentity : Prop :=
  ∀ (b : U16) (s : State), ∃ val : U32,
    exec (.f16dec b) s = .next { s with resp := some ⟨.ok, .val val⟩ } ∧
      exec (.f16enc val) s = .next { s with resp := some ⟨.ok, .bits b⟩ }

/-- R59 (b): in range and outside the collision interval, `F16DEC(F16ENC(v))` has the sign of `v`, a magnitude of the same
exponent not above `|v|`, and an error below `2^e / 1024`. -/
def Obligations.F16RoundTripTruncatesWithinOneStep : Prop :=
  ∀ (v : U32) (e : ℤ) (s : State), F32Finite v →
    (2 : ℚ) ^ e ≤ |f32Value v| → |f32Value v| < (2 : ℚ) ^ (e + 1) → -15 ≤ e → e ≤ 16 →
    ¬ ((2 : ℚ) ^ (-15 : ℤ) ≤ f32Value v ∧ f32Value v < (2 : ℚ) ^ (-15 : ℤ) * (1025 / 1024)) →
    ∃ (b : U16) (val : U32),
      exec (.f16enc v) s = .next { s with resp := some ⟨.ok, .bits b⟩ } ∧
      exec (.f16dec b) s = .next { s with resp := some ⟨.ok, .val val⟩ } ∧
      (0 < f32Value val ↔ 0 < f32Value v) ∧
      (2 : ℚ) ^ e ≤ |f32Value val| ∧ |f32Value val| ≤ |f32Value v| ∧
      |f32Value v| - |f32Value val| < (2 : ℚ) ^ e / 1024

/-- R59 (c): the round trip is exact just for zero and for the values in range with `F[12:0] = 0` outside the collision
interval. -/
def Obligations.F16RoundTripExactness : Prop :=
  ∀ (v : U32) (s : State), F32Finite v →
    ∃ (b : U16) (val : U32),
      exec (.f16enc v) s = .next { s with resp := some ⟨.ok, .bits b⟩ } ∧
      exec (.f16dec b) s = .next { s with resp := some ⟨.ok, .val val⟩ } ∧
      (f32Value val = f32Value v ↔
        f32Value v = 0 ∨
          ((f32Frac v).extractLsb' 0 13 = 0#13 ∧ 112 ≤ (f32Exp v).toNat ∧ (f32Exp v).toNat ≤ 143 ∧
            ¬ ((2 : ℚ) ^ (-15 : ℤ) ≤ f32Value v ∧ f32Value v < (2 : ℚ) ^ (-15 : ℤ) * (1025 / 1024))))

/-! ## CRC -/

/-- R63: `CRCINIT` has select code 0x2 and writes `INIT` to `crc_acc`; nothing else. -/
def Obligations.CrcinitLoadsTheInitialValue : Prop :=
  (∀ l : Operands, decode ⟨0x2#4, l⟩ = .ok .crcinit) ∧
    ∀ s : State, exec .crcinit s = .next { s with crcAcc := s.params.crc.init, resp := some ⟨.ok, .empty⟩ }

/-- R64 with R69: `CRCUPD` has select code 0x3 and steps `crc_acc` by one byte: the byte, reversed if `REFIN`, into the high half,
then eight shifts with `POLY` applied when the bit shifted out is 1. -/
def Obligations.CrcupdAbsorbsOneByte : Prop :=
  (∀ l : Operands, decode ⟨0x3#4, l⟩ = .ok (.crcupd l.b)) ∧
    ∀ (b : Byte) (s : State), exec (.crcupd b) s = .next { s with
      crcAcc := (fun a : U16 => if a.msb then (a <<< 1) ^^^ s.params.crc.poly else a <<< 1)^[8]
        (s.crcAcc ^^^ ((if s.params.crc.refin then b.reverse else b).setWidth 16 <<< 8))
      resp := some ⟨.ok, .empty⟩ }

/-- R65 with R62: `CRCRD` has select code 0x4 and returns `CRC_FIN(crc_acc)`; the register keeps its value. -/
def Obligations.CrcrdReadsWithoutChanging : Prop :=
  (∀ l : Operands, decode ⟨0x4#4, l⟩ = .ok .crcrd) ∧
    ∀ s : State, exec .crcrd s = .next { s with
      resp := some ⟨.ok, .crc ((if s.params.crc.refout then s.crcAcc.reverse else s.crcAcc) ^^^
        s.params.crc.xorout)⟩ }

/-- R62: `CRC16` is a fold of the step from `INIT`, finalised; of no byte it is `CRC_FIN(INIT)`; after a signature it is the same
loop started from the register the signature leaves. -/
def Obligations.Crc16IsAFoldOfTheStep : Prop :=
  ∀ p : CrcParams, crc16 p [] = crcFin p p.init ∧
    (∀ a : U16, crcFin p a = (if p.refout then a.reverse else a) ^^^ p.xorout) ∧
    (∀ bytes : List Byte, crc16 p bytes = crcFin p (bytes.foldl (crcStep p) p.init)) ∧
    ∀ (sig : Signature) (payload : List Byte),
      crc16 p (sig.toList ++ payload) =
        crcFin p (payload.foldl (crcStep p) (sig.toList.foldl (crcStep p) p.init))

/-- R66: "Streaming equals the function". A host that issues `CRCINIT`, then any operations but another `CRCINIT`, then `CRCRD`
gets `CRC16` of the bytes its `CRCUPD`s gave, whatever else it issued in between. -/
def Obligations.StreamingChecksumEqualsTheFunction : Prop :=
  ∀ (s : State) (ops : List Instr) (rest : List HostInput), (∀ i ∈ ops, i ≠ .crcinit) →
    s.host = commandOf .crcinit :: (ops.map commandOf ++ commandOf .crcrd :: rest) →
    ∃ t : State, Host.Core.run core (ops.length + 2) s = .next t ∧ t.host = rest ∧
      t.resp = some ⟨.ok, .crc (crc16 s.params.crc (updBytes ops))⟩

/-- R48, R66: the pseudo-operation `CRC16 [b0, ...]` returns the function `CRC16` of its bytes and touches nothing but `crc_acc`. -/
def Obligations.PseudoCrc16ReturnsTheChecksum : Prop :=
  ∀ (s : State) (bytes : List Byte) (rest : List HostInput),
    s.host = (pseudoCrc16 bytes).map commandOf ++ rest →
    Host.Core.run core (bytes.length + 2) s = .next { s with
      crcAcc := crcFold s.params.crc s.params.crc.init bytes
      resp := some ⟨.ok, .crc (crc16 s.params.crc bytes)⟩
      host := rest }

/-- R68, under the default `CRC_PARAMS` only, which the spec marks as general knowledge (assumption 7): the check value of
"123456789" and four others. -/
def Obligations.ChecksumsUnderTheDefaultParameters : Prop :=
  crc16 CrcParams.specDefault [] = 0xFFFF#16 ∧
    crc16 CrcParams.specDefault [0x00#8] = 0xE1F0#16 ∧
    crc16 CrcParams.specDefault [0xFF#8] = 0xFF00#16 ∧
    crc16 CrcParams.specDefault [0x31#8, 0x32#8, 0x33#8, 0x34#8, 0x35#8, 0x36#8, 0x37#8, 0x38#8, 0x39#8] = 0x29B1#16

/-! ## Header codec -/

/-- R80: `HPKB` has select code 0x6 and packs its masked operands; "`res.w[31:29]` is always 0". -/
def Obligations.HpkbPacksTheBroadcastLayout : Prop :=
  (∀ l : Operands, decode ⟨0x6#4, l⟩ = .ok (.hpkb l.priority l.serviceType l.isService l.sourceId)) ∧
    ∀ (p t v a : U32) (s : State), ∃ w : U32,
      exec (.hpkb p t v a) s = .next { s with resp := some ⟨.ok, .packed w⟩ } ∧
        w = ((p &&& 0x1F#32) <<< 24) ||| ((t &&& 0xFFFF#32) <<< 8) ||| ((v &&& 0x1#32) <<< 7) ||| (a &&& 0x7F#32) ∧
        w.toNat ≤ 0x1FFFFFFF

/-- R81: `HUPB` has select code 0x7 and reads the four fields at their bits; `w[31:29]` is ignored. -/
def Obligations.HupbReadsTheBroadcastLayout : Prop :=
  (∀ l : Operands, decode ⟨0x7#4, l⟩ = .ok (.hupb l.w)) ∧
    ∀ (w : U32) (s : State), ∃ h : BroadcastHeader,
      exec (.hupb w) s = .next { s with resp := some ⟨.ok, .broadcast h⟩ } ∧
        exec (.hupb (w &&& 0x1FFFFFFF#32)) s = .next { s with resp := some ⟨.ok, .broadcast h⟩ } ∧
        h.priority.toNat = w.toNat / 2 ^ 24 % 2 ^ 5 ∧ h.serviceType.toNat = w.toNat / 2 ^ 8 % 2 ^ 16 ∧
        h.isService.toNat = w.toNat / 2 ^ 7 % 2 ∧ h.sourceId.toNat = w.toNat % 2 ^ 7

/-- R82: `HPKU` has select code 0x8 and packs its masked operands; "`res.w[31:29]` is always 0". -/
def Obligations.HpkuPacksTheUnicastLayout : Prop :=
  (∀ l : Operands, decode ⟨0x8#4, l⟩ =
      .ok (.hpku l.priority l.serviceType l.isRequest l.destinationId l.isService l.sourceId)) ∧
    ∀ (p t r d v a : U32) (s : State), ∃ w : U32,
      exec (.hpku p t r d v a) s = .next { s with resp := some ⟨.ok, .packed w⟩ } ∧
        w = ((p &&& 0x1F#32) <<< 24) ||| ((t &&& 0xFF#32) <<< 16) ||| ((r &&& 0x1#32) <<< 15) |||
          ((d &&& 0x7F#32) <<< 8) ||| ((v &&& 0x1#32) <<< 7) ||| (a &&& 0x7F#32) ∧
        w.toNat ≤ 0x1FFFFFFF

/-- R83: `HUPU` has select code 0x9 and reads the six fields at their bits; `w[31:29]` is ignored. -/
def Obligations.HupuReadsTheUnicastLayout : Prop :=
  (∀ l : Operands, decode ⟨0x9#4, l⟩ = .ok (.hupu l.w)) ∧
    ∀ (w : U32) (s : State), ∃ h : UnicastHeader,
      exec (.hupu w) s = .next { s with resp := some ⟨.ok, .unicast h⟩ } ∧
        exec (.hupu (w &&& 0x1FFFFFFF#32)) s = .next { s with resp := some ⟨.ok, .unicast h⟩ } ∧
        h.priority.toNat = w.toNat / 2 ^ 24 % 2 ^ 5 ∧ h.serviceType.toNat = w.toNat / 2 ^ 16 % 2 ^ 8 ∧
        h.isRequest.toNat = w.toNat / 2 ^ 15 % 2 ∧ h.destinationId.toNat = w.toNat / 2 ^ 8 % 2 ^ 7 ∧
        h.isService.toNat = w.toNat / 2 ^ 7 % 2 ∧ h.sourceId.toNat = w.toNat % 2 ^ 7

/-- R84 (a), (c), broadcast: packing the unpacked fields of `w` gives `w & 0x1FFFFFFF`; and every word with `w[31:29] = 0` is
packed from exactly one tuple of fields. -/
def Obligations.BroadcastPackIsABijection : Prop :=
  (∀ (w : U32) (s : State), ∃ h : BroadcastHeader,
      exec (.hupb w) s = .next { s with resp := some ⟨.ok, .broadcast h⟩ } ∧
        exec (.hpkb (h.priority.setWidth 32) (h.serviceType.setWidth 32) (h.isService.setWidth 32)
          (h.sourceId.setWidth 32)) s = .next { s with resp := some ⟨.ok, .packed (w &&& 0x1FFFFFFF#32)⟩ }) ∧
    ∀ (w : U32) (s : State), w.toNat < 2 ^ 29 → ∃! h : BroadcastHeader,
      exec (.hpkb (h.priority.setWidth 32) (h.serviceType.setWidth 32) (h.isService.setWidth 32)
        (h.sourceId.setWidth 32)) s = .next { s with resp := some ⟨.ok, .packed w⟩ }

/-- R84 (a), (c), unicast: packing the unpacked fields of `w` gives `w & 0x1FFFFFFF`; and every word with `w[31:29] = 0` is packed
from exactly one tuple of fields. -/
def Obligations.UnicastPackIsABijection : Prop :=
  (∀ (w : U32) (s : State), ∃ h : UnicastHeader,
      exec (.hupu w) s = .next { s with resp := some ⟨.ok, .unicast h⟩ } ∧
        exec (.hpku (h.priority.setWidth 32) (h.serviceType.setWidth 32) (h.isRequest.setWidth 32)
          (h.destinationId.setWidth 32) (h.isService.setWidth 32) (h.sourceId.setWidth 32)) s =
          .next { s with resp := some ⟨.ok, .packed (w &&& 0x1FFFFFFF#32)⟩ }) ∧
    ∀ (w : U32) (s : State), w.toNat < 2 ^ 29 → ∃! h : UnicastHeader,
      exec (.hpku (h.priority.setWidth 32) (h.serviceType.setWidth 32) (h.isRequest.setWidth 32)
        (h.destinationId.setWidth 32) (h.isService.setWidth 32) (h.sourceId.setWidth 32)) s =
        .next { s with resp := some ⟨.ok, .packed w⟩ }

/-- R84 (b): "for every field masked to its declared width", unpacking what was packed gives the fields back, in both layouts. -/
def Obligations.PackThenUnpackMasksTheFields : Prop :=
  (∀ (p t v a : U32) (s : State), ∃ w : U32,
      exec (.hpkb p t v a) s = .next { s with resp := some ⟨.ok, .packed w⟩ } ∧
        exec (.hupb w) s = .next { s with resp := some ⟨.ok, .broadcast
          ⟨p.setWidth 5, t.setWidth 16, v.setWidth 1, a.setWidth 7⟩⟩ }) ∧
    ∀ (p t r d v a : U32) (s : State), ∃ w : U32,
      exec (.hpku p t r d v a) s = .next { s with resp := some ⟨.ok, .packed w⟩ } ∧
        exec (.hupu w) s = .next { s with resp := some ⟨.ok, .unicast
          ⟨p.setWidth 5, t.setWidth 8, r.setWidth 1, d.setWidth 7, v.setWidth 1, a.setWidth 7⟩⟩ }

/-- R87, R33: `priority`, `isService` and `sourceId` are the same under both unpacks, and the 16-bit broadcast type is the three
unicast fields in one. -/
def Obligations.BothLayoutsShareThreeFields : Prop :=
  ∀ (w : U32) (s : State), ∃ (h : BroadcastHeader) (g : UnicastHeader),
    exec (.hupb w) s = .next { s with resp := some ⟨.ok, .broadcast h⟩ } ∧
      exec (.hupu w) s = .next { s with resp := some ⟨.ok, .unicast g⟩ } ∧
      h.priority = g.priority ∧ h.isService = g.isService ∧ h.sourceId = g.sourceId ∧
      h.serviceType = g.serviceType ++ g.isRequest ++ g.destinationId

/-! ## Segmentation -/

/-- R71, R36: a payload of up to 7 bytes is sent as one frame, the payload and the control byte `0xC0 | t`, whatever the
signature; `seq_ctr` advances modulo 32. -/
def Obligations.ShortSendIsOneFrame : Prop :=
  ∀ (id : Ident) (sig : Signature) (payload : List Byte) (s : State),
    payload.length ≤ 7 → Admits s.params payload.length →
    ∃ (f : Frame) (ctr : BitVec 5), f = ⟨id, payload ++ [0xC0#8 ||| s.seqCtr.setWidth 8]⟩ ∧
      f.data.length = payload.length + 1 ∧ ctr.toNat = (s.seqCtr.toNat + 1) % 32 ∧
      exec (.segsend id sig payload) s =
        .next { s with seqCtr := ctr, txLog := s.txLog ++ [f], resp := some ⟨.ok, .frames [f]⟩ }

/-- R72: the frames of a payload of 8 bytes or more, each given by its index. -/
def Obligations.LongSendLayout : Prop :=
  ∀ (id : Ident) (sig : Signature) (payload : List Byte) (s : State),
    8 ≤ payload.length → Admits s.params payload.length →
    ∃ (fs : List Frame) (n : ℕ) (c : U16),
      exec (.segsend id sig payload) s =
        .next { s with seqCtr := s.seqCtr + 1#5, txLog := s.txLog ++ fs, resp := some ⟨.ok, .frames fs⟩ } ∧
      c = crc16 s.params.crc (sig.toList ++ payload) ∧
      n = (payload.length + 8) / 7 ∧ 2 ≤ n ∧ fs.length = n ∧
      fs[0]? = some ⟨id, [c.setWidth 8, (c >>> 8).setWidth 8] ++ payload.take 5 ++
        [0x80#8 ||| s.seqCtr.setWidth 8]⟩ ∧
      ∀ i : ℕ, 1 ≤ i → i < n → fs[i]? = some ⟨id,
        (payload.drop (5 + 7 * (i - 1))).take 7 ++
          [(if i = n - 1 then 0x40#8 else 0x00#8) ||| (if i % 2 = 1 then 0x20#8 else 0x00#8) |||
            s.seqCtr.setWidth 8]⟩

/-- R73: every slice is in range: a continuation frame carries 1 to 7 payload bytes, exactly 7 but for the last, which carries
`L + 9 - 7n`. -/
def Obligations.SegmentSlicesAreInRange : Prop :=
  ∀ (id : Ident) (sig : Signature) (payload : List Byte) (s t : State) (fs : List Frame) (i : ℕ) (f : Frame),
    8 ≤ payload.length → exec (.segsend id sig payload) s = .next t → t.resp = some ⟨.ok, .frames fs⟩ →
    1 ≤ i → fs[i]? = some f →
      5 + 7 * (i - 1) < payload.length ∧
      1 ≤ (body f).length ∧ (body f).length ≤ 7 ∧
      (i + 1 < fs.length → (body f).length = 7) ∧
      (i + 1 = fs.length → (body f).length + 7 * fs.length = payload.length + 9)

/-- R75: frame count, frame lengths and total bytes as a function of the payload's length. -/
def Obligations.FrameCountsAndLengths : Prop :=
  ∀ (id : Ident) (sig : Signature) (payload : List Byte) (s : State), Admits s.params payload.length →
    ∃ (t : State) (fs : List Frame), exec (.segsend id sig payload) s = .next t ∧ t.resp = some ⟨.ok, .frames fs⟩ ∧
      (payload.length ≤ 7 → fs.map (fun f => f.data.length) = [payload.length + 1]) ∧
      (8 ≤ payload.length →
        fs.length = (payload.length + 8) / 7 ∧
        fs.map (fun f => f.data.length) =
          List.replicate (fs.length - 1) 8 ++ [payload.length + 10 - 7 * fs.length] ∧
        (fs.map (fun f => f.data.length)).sum = payload.length + 2 + fs.length) ∧
      ∀ f ∈ fs, 1 ≤ f.data.length ∧ f.data.length ≤ 8

/-- R35: the control byte of frame `i` of a send of `n` frames, case by case. "The values 0xA0 to 0xBF (start with toggle) and
0xE0 to 0xFF (start, end and toggle) are never produced." -/
def Obligations.ControlBytesOfASend : Prop :=
  ∀ (id : Ident) (sig : Signature) (payload : List Byte) (s t : State) (fs : List Frame) (i : ℕ) (f : Frame),
    exec (.segsend id sig payload) s = .next t → t.resp = some ⟨.ok, .frames fs⟩ → fs[i]? = some f →
      (control f).toNat = s.seqCtr.toNat +
        (if fs.length = 1 then 0xC0
         else if i = 0 then 0x80
         else if i + 1 < fs.length then (if i % 2 = 1 then 0x20 else 0x00)
         else (if i % 2 = 1 then 0x60 else 0x40)) ∧
      ¬ (0xA0 ≤ (control f).toNat ∧ (control f).toNat ≤ 0xBF) ∧ ¬ (0xE0 ≤ (control f).toNat)

/-- R77: (b), (c) for more than 7 bytes, the payload is the concatenation of what the frames carry, frame 0 without its two checksum bytes and every
frame without its control byte; the checksum bytes are `CRC16(sig ++ payload)` little-endian; start is on frame 0 only, end on
the last only, toggle on odd indices, and every frame has the one identifier and counter; (a), (c) for up to 7 bytes, there is
one frame with start and end. -/
def Obligations.TheFramesGiveThePayloadBack : Prop :=
  (∀ (id : Ident) (sig : Signature) (payload : List Byte) (s : State),
    7 < payload.length → Admits s.params payload.length →
    ∃ (f0 : Frame) (fs : List Frame),
      exec (.segsend id sig payload) s = .next { s with
        seqCtr := s.seqCtr + 1#5, txLog := s.txLog ++ (f0 :: fs), resp := some ⟨.ok, .frames (f0 :: fs)⟩ } ∧
      7 * (f0 :: fs).length ≥ payload.length + 2 ∧ 7 * fs.length < payload.length + 2 ∧
      payload = (body f0).drop 2 ++ fs.flatMap body ∧
      (∃ b0 b1 : Byte, f0.data[0]? = some b0 ∧ f0.data[1]? = some b1 ∧
        b0.toNat + 256 * b1.toNat = (crc16 s.params.crc (sig.toList ++ payload)).toNat) ∧
      ∀ (i : ℕ) (f : Frame), (f0 :: fs)[i]? = some f →
        f.id = id ∧ counter f = s.seqCtr ∧ (starts f ↔ i = 0) ∧ (ends f ↔ i = fs.length) ∧
          (toggles f ↔ i % 2 = 1)) ∧
    ∀ (id : Ident) (sig : Signature) (payload : List Byte) (s : State),
      payload.length ≤ 7 → Admits s.params payload.length →
      ∃ (f : Frame) (t : State),
        exec (.segsend id sig payload) s = .next t ∧ t.resp = some ⟨.ok, .frames [f]⟩ ∧
          f.id = id ∧ starts f ∧ ends f ∧ ¬ toggles f ∧ counter f = s.seqCtr ∧ body f = payload

/-- R74: "The counter value is identical across all frames of one logical message; it changes only between distinct send
operations." After a completed send `seq_ctr` is one more modulo 32; a refused `SEGSEND` does not increment it. -/
def Obligations.OneCounterValuePerSend : Prop :=
  ∀ (id : Ident) (sig : Signature) (payload : List Byte) (s : State), ∃ (t : State) (r : Response),
    exec (.segsend id sig payload) s = .next t ∧ t.resp = some r ∧
      ((∃ fs, r = ⟨.ok, .frames fs⟩ ∧ fs ≠ [] ∧ (∀ f ∈ fs, counter f = s.seqCtr) ∧
          t.seqCtr.toNat = (s.seqCtr.toNat + 1) % 32) ∨
        (r.status = .tooLong ∧ t.seqCtr = s.seqCtr))

/-- R78: "If `L > PAYLOAD_MAX`, `SEGSEND` is refused with `status = TOO_LONG`": no frame, no counter increment; with an infinite
`PAYLOAD_MAX` this never happens. -/
def Obligations.TooLongPayloadIsRefused : Prop :=
  (∀ (id : Ident) (sig : Signature) (payload : List Byte) (s : State) (m : ℕ),
      s.params.payloadMax = some m → m < payload.length →
      exec (.segsend id sig payload) s = .next { s with resp := some ⟨.tooLong, .empty⟩ }) ∧
    ∀ (id : Ident) (sig : Signature) (payload : List Byte) (s : State), s.params.payloadMax = none →
      ∃ (t : State) (fs : List Frame), exec (.segsend id sig payload) s = .next t ∧ t.resp = some ⟨.ok, .frames fs⟩

/-- R76, R109: what `SEGSEND` does not look at: the value of `crc_acc`, which it keeps; the identifier, which it only copies; the
signature when the payload has up to 7 bytes. -/
def Obligations.SegsendIgnoresAccumulatorAndIdentifier : Prop :=
  ∀ (id id' : Ident) (sig sig' : Signature) (payload : List Byte) (s : State) (a : U16), ∃ t : State,
    exec (.segsend id sig payload) s = .next t ∧ t.crcAcc = s.crcAcc ∧
      exec (.segsend id sig payload) { s with crcAcc := a } = .next { t with crcAcc := a } ∧
      (payload.length ≤ 7 → exec (.segsend id sig' payload) s = .next t) ∧
      ∀ fs, t.resp = some ⟨.ok, .frames fs⟩ →
        exec (.segsend id' sig payload) s = .next { t with
          txLog := s.txLog ++ fs.map (fun f => { f with id := id' })
          resp := some ⟨.ok, .frames (fs.map fun f => { f with id := id' })⟩ }

/-- R48, R14: the pseudo-operation `SENDB` sends under the identifier `w[28:0]` of the header it packs, so that the bits of every
frame's identifier are the masked header fields. -/
def Obligations.SendbSendsUnderThePackedHeader : Prop :=
  ∀ (p t v a : U32) (sig : Signature) (payload : List Byte) (s : State), Admits s.params payload.length →
    ∃ (u : State) (fs : List Frame), pseudoSendB p t v a sig payload s = .next u ∧
      u.txLog = s.txLog ++ fs ∧ u.resp = some ⟨.ok, .frames fs⟩ ∧ fs ≠ [] ∧
      ∀ f ∈ fs, f.id = p.setWidth 5 ++ t.setWidth 16 ++ v.setWidth 1 ++ a.setWidth 7

/-- R48, R14: the pseudo-operation `SENDU` likewise, with the six unicast fields. -/
def Obligations.SenduSendsUnderThePackedHeader : Prop :=
  ∀ (p t r d v a : U32) (sig : Signature) (payload : List Byte) (s : State), Admits s.params payload.length →
    ∃ (u : State) (fs : List Frame), pseudoSendU p t r d v a sig payload s = .next u ∧
      u.txLog = s.txLog ++ fs ∧ u.resp = some ⟨.ok, .frames fs⟩ ∧ fs ≠ [] ∧
      ∀ f ∈ fs, f.id =
        p.setWidth 5 ++ t.setWidth 8 ++ r.setWidth 1 ++ d.setWidth 7 ++ v.setWidth 1 ++ a.setWidth 7

/-- R23: a signature held as a 64-bit integer `S` has `sig[j] = S[8j+7 : 8j]`. -/
def Obligations.IntegerSignatureIsLittleEndian : Prop :=
  ∀ (S : BitVec 64) (j : ℕ) (h : j < 8), (signatureOfInt S)[j].toNat = S.toNat / 2 ^ (8 * j) % 2 ^ 8
end

