-- ==== Sys2Proof/Laws/F16Codec.lean ====
section
/-! SUPPORT. The real value of a binary32 word from its three fields, and the fields of a packed half-precision word. -/

namespace Sys2Proof.Safety

open Sys2Proof.Machine

/-- The value of a word with known fields (R40). -/
theorem f32Value_of_fields (w : U32) (s : BitVec 1) (e : BitVec 8) (f : BitVec 23)
    (hs : f32Sign w = s) (he : f32Exp w = e) (hf : f32Frac w = f) :
    f32Value w =
      if e = 0#8 then signOf s * (2 : ℚ) ^ (-149 : ℤ) * (f.toNat : ℚ)
      else signOf s * (2 : ℚ) ^ ((e.toNat : ℤ) - 127) * (1 + (f.toNat : ℚ) / 2 ^ 23) := by
  subst hs he hf
  rfl

/-- The number a packed half-precision word is (R39). -/
theorem f16Pack_toNat (s : BitVec 1) (e : BitVec 5) (q : BitVec 10) :
    (f16Pack s e q).toNat = s.toNat * 2 ^ 15 + e.toNat * 2 ^ 10 + q.toNat := by
  have hq := q.isLt
  have he := e.isLt
  have h1 : (s ++ e).toNat = s.toNat * 2 ^ 5 + e.toNat := by
    rw [BitVec.toNat_append, Nat.shiftLeft_eq, mul_comm, ← Nat.two_pow_add_eq_or_of_lt he]
  rw [f16Pack, BitVec.toNat_append, Nat.shiftLeft_eq, mul_comm, ← Nat.two_pow_add_eq_or_of_lt hq, h1]
  ring

end Sys2Proof.Safety
end

