-- ==== Sys2Proof/Laws/State.lean ====
section
/-! SUPPORT. One lemma per field of State per update of Machine/Ops.lean, so that no proof unfolds a record update. -/

namespace Sys2Proof.Machine

@[simp] theorem respond_seqCtr (st : Status) (r : Result) (s : State) :
    (respond st r s).seqCtr = s.seqCtr := rfl
@[simp] theorem respond_crcAcc (st : Status) (r : Result) (s : State) :
    (respond st r s).crcAcc = s.crcAcc := rfl
@[simp] theorem respond_txLog (st : Status) (r : Result) (s : State) :
    (respond st r s).txLog = s.txLog := rfl
@[simp] theorem respond_params (st : Status) (r : Result) (s : State) :
    (respond st r s).params = s.params := rfl
@[simp] theorem respond_host (st : Status) (r : Result) (s : State) :
    (respond st r s).host = s.host := rfl
@[simp] theorem respond_resp (st : Status) (r : Result) (s : State) :
    (respond st r s).resp = some { status := st, result := r } := rfl
@[simp] theorem respond_draws (st : Status) (r : Result) (s : State) :
    (respond st r s).draws = s.draws := rfl

@[simp] theorem answer_seqCtr (r : Result) (s : State) :
    (answer r s).seqCtr = s.seqCtr := rfl
@[simp] theorem answer_crcAcc (r : Result) (s : State) :
    (answer r s).crcAcc = s.crcAcc := rfl
@[simp] theorem answer_txLog (r : Result) (s : State) :
    (answer r s).txLog = s.txLog := rfl
@[simp] theorem answer_params (r : Result) (s : State) :
    (answer r s).params = s.params := rfl
@[simp] theorem answer_host (r : Result) (s : State) :
    (answer r s).host = s.host := rfl
@[simp] theorem answer_resp (r : Result) (s : State) :
    (answer r s).resp = some { status := .ok, result := r } := rfl
@[simp] theorem answer_draws (r : Result) (s : State) :
    (answer r s).draws = s.draws := rfl

@[simp] theorem refuse_seqCtr (st : Status) (s : State) :
    (refuse st s).seqCtr = s.seqCtr := rfl
@[simp] theorem refuse_crcAcc (st : Status) (s : State) :
    (refuse st s).crcAcc = s.crcAcc := rfl
@[simp] theorem refuse_txLog (st : Status) (s : State) :
    (refuse st s).txLog = s.txLog := rfl
@[simp] theorem refuse_params (st : Status) (s : State) :
    (refuse st s).params = s.params := rfl
@[simp] theorem refuse_host (st : Status) (s : State) :
    (refuse st s).host = s.host := rfl
@[simp] theorem refuse_resp (st : Status) (s : State) :
    (refuse st s).resp = some { status := st, result := .empty } := rfl
@[simp] theorem refuse_draws (st : Status) (s : State) :
    (refuse st s).draws = s.draws := rfl

@[simp] theorem emitAll_seqCtr (fs : List Frame) (s : State) :
    (emitAll fs s).seqCtr = s.seqCtr := rfl
@[simp] theorem emitAll_crcAcc (fs : List Frame) (s : State) :
    (emitAll fs s).crcAcc = s.crcAcc := rfl
@[simp] theorem emitAll_txLog (fs : List Frame) (s : State) :
    (emitAll fs s).txLog = s.txLog ++ fs := rfl
@[simp] theorem emitAll_params (fs : List Frame) (s : State) :
    (emitAll fs s).params = s.params := rfl
@[simp] theorem emitAll_host (fs : List Frame) (s : State) :
    (emitAll fs s).host = s.host := rfl
@[simp] theorem emitAll_resp (fs : List Frame) (s : State) :
    (emitAll fs s).resp = s.resp := rfl
@[simp] theorem emitAll_draws (fs : List Frame) (s : State) :
    (emitAll fs s).draws = s.draws := rfl

@[simp] theorem advanceCounter_seqCtr (s : State) :
    (advanceCounter s).seqCtr = s.seqCtr + 1#5 := rfl
@[simp] theorem advanceCounter_crcAcc (s : State) :
    (advanceCounter s).crcAcc = s.crcAcc := rfl
@[simp] theorem advanceCounter_txLog (s : State) :
    (advanceCounter s).txLog = s.txLog := rfl
@[simp] theorem advanceCounter_params (s : State) :
    (advanceCounter s).params = s.params := rfl
@[simp] theorem advanceCounter_host (s : State) :
    (advanceCounter s).host = s.host := rfl
@[simp] theorem advanceCounter_resp (s : State) :
    (advanceCounter s).resp = s.resp := rfl
@[simp] theorem advanceCounter_draws (s : State) :
    (advanceCounter s).draws = s.draws := rfl

@[simp] theorem setCrcAcc_seqCtr (v : U16) (s : State) :
    (setCrcAcc v s).seqCtr = s.seqCtr := rfl
@[simp] theorem setCrcAcc_crcAcc (v : U16) (s : State) :
    (setCrcAcc v s).crcAcc = v := rfl
@[simp] theorem setCrcAcc_txLog (v : U16) (s : State) :
    (setCrcAcc v s).txLog = s.txLog := rfl
@[simp] theorem setCrcAcc_params (v : U16) (s : State) :
    (setCrcAcc v s).params = s.params := rfl
@[simp] theorem setCrcAcc_host (v : U16) (s : State) :
    (setCrcAcc v s).host = s.host := rfl
@[simp] theorem setCrcAcc_resp (v : U16) (s : State) :
    (setCrcAcc v s).resp = s.resp := rfl
@[simp] theorem setCrcAcc_draws (v : U16) (s : State) :
    (setCrcAcc v s).draws = s.draws := rfl

@[simp] theorem resetBlock_seqCtr (s : State) :
    (resetBlock s).seqCtr = 0#5 := rfl
@[simp] theorem resetBlock_crcAcc (s : State) :
    (resetBlock s).crcAcc = Config.freeU16 s.draws := rfl
@[simp] theorem resetBlock_txLog (s : State) :
    (resetBlock s).txLog = [] := rfl
@[simp] theorem resetBlock_params (s : State) :
    (resetBlock s).params = s.params := rfl
@[simp] theorem resetBlock_host (s : State) :
    (resetBlock s).host = s.host := rfl
@[simp] theorem resetBlock_resp (s : State) :
    (resetBlock s).resp = none := rfl
@[simp] theorem resetBlock_draws (s : State) :
    (resetBlock s).draws = s.draws + 1 := rfl

@[simp] theorem present_seqCtr (c : Command) (s : State) :
    (present c s).seqCtr = s.seqCtr := rfl
@[simp] theorem present_crcAcc (c : Command) (s : State) :
    (present c s).crcAcc = s.crcAcc := rfl
@[simp] theorem present_txLog (c : Command) (s : State) :
    (present c s).txLog = s.txLog := rfl
@[simp] theorem present_params (c : Command) (s : State) :
    (present c s).params = s.params := rfl
@[simp] theorem present_host (c : Command) (s : State) :
    (present c s).host = .command c :: s.host := rfl
@[simp] theorem present_resp (c : Command) (s : State) :
    (present c s).resp = s.resp := rfl
@[simp] theorem present_draws (c : Command) (s : State) :
    (present c s).draws = s.draws := rfl

@[simp] theorem draw_fst (s : State) : (draw s).1 = Config.freeU16 s.draws := rfl
@[simp] theorem draw_snd_seqCtr (s : State) : (draw s).2.seqCtr = s.seqCtr := rfl
@[simp] theorem draw_snd_crcAcc (s : State) : (draw s).2.crcAcc = s.crcAcc := rfl
@[simp] theorem draw_snd_txLog (s : State) : (draw s).2.txLog = s.txLog := rfl
@[simp] theorem draw_snd_params (s : State) : (draw s).2.params = s.params := rfl
@[simp] theorem draw_snd_host (s : State) : (draw s).2.host = s.host := rfl
@[simp] theorem draw_snd_resp (s : State) : (draw s).2.resp = s.resp := rfl
@[simp] theorem draw_snd_draws (s : State) : (draw s).2.draws = s.draws + 1 := rfl

end Sys2Proof.Machine
end

