-- ==== Sys2Proof/Laws/Ops.lean ====
section
/-! SUPPORT. One lemma for each shared operation and each meaning that says everything it can do; what a step can do, once. -/

namespace Sys2Proof.Machine

/-- A send is too long exactly when `PAYLOAD_MAX` is finite and below its length (R78). -/
theorem payloadTooLong_iff (p : Params) (L : Nat) :
    payloadTooLong p L = true ↔ ∃ m, p.payloadMax = some m ∧ m < L := by
  unfold payloadTooLong
  cases p.payloadMax <;> simp

/-- What the block takes from the host: nothing, or the first of what it has to send. -/
theorem nextInput_eq (s : State) :
    (s.host = [] ∧ nextInput s = none) ∨
      ∃ x rest, s.host = x :: rest ∧ nextInput s = some (x, { s with host := rest }) := by
  unfold nextInput
  cases h : s.host with
  | nil => exact .inl ⟨rfl, rfl⟩
  | cons x rest => exact .inr ⟨x, rest, rfl, rfl⟩

/-- Taking the host's input back from a presented command. -/
theorem nextInput_present (c : Command) (s : State) : nextInput (present c s) = some (.command c, s) := rfl

/-- Everything a `SEGSEND` can do (R70, R78). -/
theorem execSegsend_eq (id : Ident) (sig : Signature) (payload : List Byte) (s : State) :
    execSegsend id sig payload s =
      if payloadTooLong s.params payload.length = true then .next (refuse .tooLong s)
      else .next (answer (.frames (segFrames s.params.crc id sig payload s.seqCtr))
        (advanceCounter (emitAll (segFrames s.params.crc id sig payload s.seqCtr) s))) := rfl

/-- Everything an `F16ENC` can do (R54, R55). -/
theorem execF16enc_eq (val : U32) (s : State) :
    execF16enc val s =
      if f32NonFinite val = true then .next (answer (.bits (Config.freeU16 s.draws)) (draw s).2)
      else .next (answer (.bits (f16Encode val)) s) := rfl

/-- No operation touches the parameters or what the host has still to send. -/
theorem exec_keeps_params_and_host (i : Instr) (s t : State) (h : exec i s = .next t) :
    t.params = s.params ∧ t.host = s.host := by
  cases i
  case segsend id sig payload =>
    rw [exec, execSegsend_eq] at h
    split at h <;> cases h <;> exact ⟨rfl, rfl⟩
  case f16enc val =>
    rw [exec, execF16enc_eq] at h
    split at h <;> cases h <;> exact ⟨rfl, rfl⟩
  all_goals cases h; exact ⟨rfl, rfl⟩

/-- Everything a step can do: stay idle, reset, run an operation, or refuse a reserved select code. -/
theorem step_cases (s : State) :
    (s.host = [] ∧ step s = .next s) ∨
    (∃ rest, s.host = .reset :: rest ∧ step s = .next (resetBlock { s with host := rest })) ∨
    (∃ c rest i, s.host = .command c :: rest ∧ decode c = .ok i ∧ step s = exec i { s with host := rest }) ∨
    (∃ c rest op, s.host = .command c :: rest ∧ decode c = .error (.reservedSelect op) ∧
      step s = .next (refuse .illegalOp { s with host := rest })) := by
  unfold step
  rcases nextInput_eq s with ⟨h, e⟩ | ⟨x, rest, h, e⟩ <;> rw [e]
  · exact .inl ⟨h, rfl⟩
  · cases x with
    | reset => exact .inr (.inl ⟨rest, h, rfl⟩)
    | command c =>
      cases d : decode c with
      | ok i => exact .inr (.inr (.inl ⟨c, rest, i, h, d, by simp [d]⟩))
      | error e =>
        cases e with
        | reservedSelect op => exact .inr (.inr (.inr ⟨c, rest, op, h, d, by simp [d, refuseDecode]⟩))

end Sys2Proof.Machine
end

