-- ==== Sys2Proof/Laws/PerInstr.lean ====
section
/-!
SUPPORT. For every operation: a command that decodes to it is, but for the operand fields the operation does not have, the
command that presents it (30_encoding.md R43, R44; 10_state.md R14).
-/

namespace Sys2Proof.Laws.ReencodingDropsForeignFields

/-- Presenting the decoded operation again gives the same select code and the operation's own operand fields. -/
def Statement (i : Instr) : Prop :=
  ∀ c : Command, decode c = .ok i → encode i = { c with operands := c.operands.restrict c.op }

/-- The decoder's table inverted, row by row. -/
theorem of_decode (c : Command) (i : Instr) (h : decode c = .ok i) :
    encode i = { c with operands := c.operands.restrict c.op } := by
  obtain ⟨op, l⟩ := c
  unfold decode at h
  split at h <;> cases h <;> rename_i hop <;> cases hop <;> rfl

theorem f16dec (bits : U16) : Statement (.f16dec bits) := fun c h => of_decode c _ h
theorem f16enc (val : U32) : Statement (.f16enc val) := fun c h => of_decode c _ h
theorem crcinit : Statement .crcinit := fun c h => of_decode c _ h
theorem crcupd (b : Byte) : Statement (.crcupd b) := fun c h => of_decode c _ h
theorem crcrd : Statement .crcrd := fun c h => of_decode c _ h
theorem segsend (id : Ident) (sig : Signature) (payload : List Byte) : Statement (.segsend id sig payload) :=
  fun c h => of_decode c _ h
theorem hpkb (priority serviceType isService sourceId : U32) :
    Statement (.hpkb priority serviceType isService sourceId) := fun c h => of_decode c _ h
theorem hupb (w : U32) : Statement (.hupb w) := fun c h => of_decode c _ h
theorem hpku (priority serviceType isRequest destinationId isService sourceId : U32) :
    Statement (.hpku priority serviceType isRequest destinationId isService sourceId) := fun c h => of_decode c _ h
theorem hupu (w : U32) : Statement (.hupu w) := fun c h => of_decode c _ h

end Sys2Proof.Laws.ReencodingDropsForeignFields
end

