-- ==== Sys2Proof/Laws/Segmentation.lean ====
section
/-! SUPPORT. The bits of a control byte, slices of a payload, and the shape of the frames of a send. -/

namespace Sys2Proof.Machine

theorem controlByte_start : ∀ (a b c : Bool) (t : BitVec 5), (controlByte a b c t).getLsbD 7 = a := by decide

theorem controlByte_end : ∀ (a b c : Bool) (t : BitVec 5), (controlByte a b c t).getLsbD 6 = b := by decide

theorem controlByte_toggle : ∀ (a b c : Bool) (t : BitVec 5), (controlByte a b c t).getLsbD 5 = c := by decide

theorem controlByte_counter : ∀ (a b c : Bool) (t : BitVec 5), (controlByte a b c t).extractLsb' 0 5 = t := by decide

theorem slice_length (bytes : List Byte) (a b : Nat) (h : b ≤ bytes.length) :
    (slice bytes a b).length = b - a := by
  simp only [slice, List.length_take, List.length_drop]
  omega

/-- Two slices that meet join to one. -/
theorem slice_append_slice (bytes : List Byte) (a b c : Nat) (hab : a ≤ b) (hbc : b ≤ c) :
    slice bytes a b ++ slice bytes b c = slice bytes a c := by
  have hb : bytes.drop b = (bytes.drop a).drop (b - a) := by rw [List.drop_drop]; congr 1; omega
  have hc : c - a = (b - a) + (c - b) := by omega
  rw [slice, slice, slice, hb, hc, List.take_add]

/-- The number of frames is the least `n` with `7n ≥ L + 2` (R73). -/
theorem segCount_bounds (L : Nat) : L + 2 ≤ 7 * segCount L ∧ 7 * segCount L < L + 9 := by
  unfold segCount
  omega

@[simp] theorem segMulti_length (p : CrcParams) (id : Ident) (sig : Signature) (payload : List Byte) (t : BitVec 5)
    (h : 8 ≤ payload.length) : (segMulti p id sig payload t).length = segCount payload.length := by
  have := segCount_bounds payload.length
  simp only [segMulti, List.length_cons, List.length_map, List.length_range]
  omega

end Sys2Proof.Machine
end

