-- ==== Sys2Proof/Tests/Slice0.lean ====
section
/-!
SUPPORT. Small tests of single operations, each expected value copied from 95_test_vectors.md (section in the comment) or from
the rule named, the words of each family decoded, the well-formedness checks refusing an ill-formed term, and for every
obligation with hypotheses a concrete state and operands that meet them.
-/

namespace Sys2Proof.Tests

open Sys2Proof.Machine Sys2Proof.Safety

/-! ## Helpers -/

/-- The reset state with a counter value and an accumulator value. -/
def at_ (ctr : BitVec 5) (acc : U16) : State := { State.reset with seqCtr := ctr, crcAcc := acc }

/-- An instance with `PAYLOAD_MAX = 64`, as program P4 and section 2.5 have it. -/
def bounded (ctr : BitVec 5) : State := { at_ ctr 0#16 with params := { State.reset.params with payloadMax := some 64 } }

/-- The response of an outcome. -/
def respOf (o : Host.Outcome State Fault Refusal) : Option Response :=
  match o with
  | .next t => t.resp
  | _ => none

/-- The registers and the length of the log of an outcome. -/
def regsOf (o : Host.Outcome State Fault Refusal) : Option (BitVec 5 × U16 × Nat) :=
  match o with
  | .next t => some (t.seqCtr, t.crcAcc, t.txLog.length)
  | _ => none

def zeroSig : Signature := Vector.replicate 8 0#8

/-! ## Well-formedness: each check refuses an ill-formed term -/

/-- R45: a reserved select code. -/
theorem test_wf_reserved_select : (Command.mk 0xA#4 Operands.zero).selectAssigned = false := by decide

/-- R43: a value in an operand field that `CRCUPD` does not have. -/
theorem test_wf_foreign_operand : (Command.mk 0x3#4 { Operands.zero with w := 1#32 }).onlyItsOperands = false := by
  decide

theorem test_wf_command : (Command.mk 0x3#4 { Operands.zero with b := 0x31#8 }).wellFormed = true := by decide

/-- R30: a frame of 16 data bytes. -/
theorem test_wf_frame_too_long : (Frame.mk 0#29 (List.replicate 16 0#8)).wellFormed = false := by decide

/-! ## Decoding: the table's "encoding" bit patterns, one per family and more -/

theorem test_decode_f16dec : decode ⟨0b0000#4, { Operands.zero with bits := 0x5640#16 }⟩ = .ok (.f16dec 0x5640#16) := rfl
theorem test_decode_f16enc :
    decode ⟨0b0001#4, { Operands.zero with val := 0x3F000000#32 }⟩ = .ok (.f16enc 0x3F000000#32) := rfl
theorem test_decode_crcinit : decode ⟨0b0010#4, Operands.zero⟩ = .ok .crcinit := rfl
theorem test_decode_crcupd : decode ⟨0b0011#4, { Operands.zero with b := 0x31#8 }⟩ = .ok (.crcupd 0x31#8) := rfl
theorem test_decode_crcrd : decode ⟨0b0100#4, Operands.zero⟩ = .ok .crcrd := rfl
theorem test_decode_segsend :
    decode ⟨0b0101#4, { Operands.zero with id := 0x123#29, payload := [0x99#8] }⟩ =
      .ok (.segsend 0x123#29 zeroSig [0x99#8]) := rfl
theorem test_decode_hpkb :
    decode ⟨0b0110#4, { Operands.zero with priority := 16#32, serviceType := 1011#32, sourceId := 10#32 }⟩ =
      .ok (.hpkb 16#32 1011#32 0#32 10#32) := rfl
theorem test_decode_hupb :
    decode ⟨0b0111#4, { Operands.zero with w := 0x1003F30A#32 }⟩ = .ok (.hupb 0x1003F30A#32) := rfl
theorem test_decode_hpku :
    decode ⟨0b1000#4, { Operands.zero with
      priority := 1#32, serviceType := 2#32, isRequest := 3#32, destinationId := 4#32, isService := 5#32, sourceId := 6#32 }⟩ =
      .ok (.hpku 1#32 2#32 3#32 4#32 5#32 6#32) := rfl
theorem test_decode_hupu :
    decode ⟨0b1001#4, { Operands.zero with w := 0x1E0B85FF#32 }⟩ = .ok (.hupu 0x1E0B85FF#32) := rfl
theorem test_decode_reserved : decode ⟨0b1100#4, Operands.zero⟩ = .error (.reservedSelect 0xC#4) := rfl

/-- The interface's word for a table row runs as the first operation after reset. -/
theorem test_fetch_word_runs_crcinit :
    regsOf (step (State.reset.withFetchWord 8 2)) = some (0#5, 0xFFFF#16, 0) := by decide

/-! ## Float codec (section 2.1) -/

theorem test_f16dec_hundred :
    respOf (exec (.f16dec 0x5640#16) (at_ 0#5 0#16)) = some ⟨.ok, .val 0x42C80000#32⟩ := by decide

/-- 0x8000 is -2^-15 and no zero. -/
theorem test_f16dec_minus_smallest :
    respOf (exec (.f16dec 0x8000#16) (at_ 0#5 0#16)) = some ⟨.ok, .val 0xB8000000#32⟩ := by decide

/-- -0.1, truncated toward zero; 1e10 (e = 33) wraps; -0.0. -/
theorem test_f16enc_normal :
    respOf (exec (.f16enc 0xBDCCCCCD#32) (at_ 0#5 0#16)) = some ⟨.ok, .bits 0xAE66#16⟩ ∧
      respOf (exec (.f16enc 0x501502F9#32) (at_ 0#5 0#16)) = some ⟨.ok, .bits 0x40A8#16⟩ ∧
      respOf (exec (.f16enc 0x80000000#32) (at_ 0#5 0#16)) = some ⟨.ok, .bits 0x0000#16⟩ := by decide

/-- Subnormals on both sides of k = 10. -/
theorem test_f16enc_subnormal :
    respOf (exec (.f16enc 0x00001234#32) (at_ 0#5 0#16)) = some ⟨.ok, .bits 0x188D#16⟩ ∧
      respOf (exec (.f16enc 0x00000003#32) (at_ 0#5 0#16)) = some ⟨.ok, .bits 0x6E00#16⟩ ∧
      respOf (exec (.f16enc 0x80000001#32) (at_ 0#5 0#16)) = some ⟨.ok, .bits 0xE800#16⟩ := by decide

/-! ## CRC (section 2.2) -/

theorem test_crcinit : regsOf (exec .crcinit (at_ 4#5 0x1234#16)) = some (4#5, 0xFFFF#16, 0) := by decide

/-- The register trace of "123456789". -/
theorem test_crcupd_trace :
    regsOf (exec (.crcupd 0x31#8) (at_ 4#5 0xFFFF#16)) = some (4#5, 0xC782#16, 0) ∧
      regsOf (exec (.crcupd 0x39#8) (at_ 4#5 0xA12B#16)) = some (4#5, 0x29B1#16, 0) := by decide

theorem test_crcrd : respOf (exec .crcrd (at_ 0#5 0x1CA6#16)) = some ⟨.ok, .crc 0x1CA6#16⟩ := by decide

/-- The catalogue's check values of KERMIT, MODBUS and X-25, which use every parameter. -/
theorem test_crc16_other_parameters :
    crc16 ⟨0x1021#16, 0x0000#16, true, true, 0x0000#16⟩
        [0x31#8, 0x32#8, 0x33#8, 0x34#8, 0x35#8, 0x36#8, 0x37#8, 0x38#8, 0x39#8] = 0x2189#16 ∧
      crc16 ⟨0x8005#16, 0xFFFF#16, true, true, 0x0000#16⟩
        [0x31#8, 0x32#8, 0x33#8, 0x34#8, 0x35#8, 0x36#8, 0x37#8, 0x38#8, 0x39#8] = 0x4B37#16 ∧
      crc16 ⟨0x1021#16, 0xFFFF#16, true, true, 0xFFFF#16⟩
        [0x31#8, 0x32#8, 0x33#8, 0x34#8, 0x35#8, 0x36#8, 0x37#8, 0x38#8, 0x39#8] = 0x906E#16 := by decide +kernel

/-! ## Segmentation (section 2.4) -/

/-- V-SEG-2: an empty payload, and the counter's wrap. -/
theorem test_segsend_empty :
    respOf (exec (.segsend 0x123#29 zeroSig []) (at_ 31#5 0#16)) = some ⟨.ok, .frames [⟨0x123#29, [0xDF#8]⟩]⟩ ∧
      regsOf (exec (.segsend 0x123#29 zeroSig []) (at_ 31#5 0#16)) = some (0#5, 0#16, 1) := by decide

/-- V-SEG-8: four frames, 20 bytes. -/
theorem test_segsend_four_frames :
    respOf (exec (.segsend 0x0ABCDEF1#29
        #v[0x53#8, 0x49#8, 0x47#8, 0x4E#8, 0x41#8, 0x54#8, 0x55#8, 0x52#8]
        [0x10#8, 0x11#8, 0x12#8, 0x13#8, 0x14#8, 0x15#8, 0x16#8, 0x17#8, 0x18#8, 0x19#8,
         0x1A#8, 0x1B#8, 0x1C#8, 0x1D#8, 0x1E#8, 0x1F#8, 0x20#8, 0x21#8, 0x22#8, 0x23#8]) (at_ 30#5 0#16)) =
      some ⟨.ok, .frames [
        ⟨0x0ABCDEF1#29, [0x42#8, 0xAE#8, 0x10#8, 0x11#8, 0x12#8, 0x13#8, 0x14#8, 0x9E#8]⟩,
        ⟨0x0ABCDEF1#29, [0x15#8, 0x16#8, 0x17#8, 0x18#8, 0x19#8, 0x1A#8, 0x1B#8, 0x3E#8]⟩,
        ⟨0x0ABCDEF1#29, [0x1C#8, 0x1D#8, 0x1E#8, 0x1F#8, 0x20#8, 0x21#8, 0x22#8, 0x1E#8]⟩,
        ⟨0x0ABCDEF1#29, [0x23#8, 0x7E#8]⟩]⟩ := by decide +kernel

/-! ## Header codec (section 2.3) -/

/-- Every operand wider than its field. -/
theorem test_hpkb_masks :
    respOf (exec (.hpkb 0x3F#32 0x12345#32 2#32 0x80#32) (at_ 0#5 0#16)) = some ⟨.ok, .packed 0x1F234500#32⟩ := by decide

/-- Bits 31:29 set. -/
theorem test_hupb_ignores_high_bits :
    respOf (exec (.hupb 0xF003F30A#32) (at_ 0#5 0#16)) =
      some ⟨.ok, .broadcast ⟨16#5, 1011#16, 0#1, 10#7⟩⟩ := by decide

theorem test_hpku_masks :
    respOf (exec (.hpku 0x21#32 0x1FF#32 3#32 0x85#32 2#32 0xFF#32) (at_ 0#5 0#16)) =
      some ⟨.ok, .packed 0x01FF857F#32⟩ := by decide

/-- A broadcast word read as unicast. -/
theorem test_hupu_of_broadcast_word :
    respOf (exec (.hupu 0x1003F30A#32) (at_ 0#5 0#16)) =
      some ⟨.ok, .unicast ⟨16#5, 3#8, 1#1, 115#7, 0#1, 10#7⟩⟩ := by decide

/-! ## Refusals and reset (section 2.5) -/

/-- `op = 0xA` with any operands: refused, state unchanged. -/
theorem test_reserved_code :
    respOf (step (present ⟨0xA#4, Operands.zero⟩ (at_ 4#5 0x1234#16))) = some ⟨.illegalOp, .empty⟩ ∧
      regsOf (step (present ⟨0xA#4, Operands.zero⟩ (at_ 4#5 0x1234#16))) = some (4#5, 0x1234#16, 0) := by decide

/-- `PAYLOAD_MAX = 64`: 65 bytes are refused, 64 give 10 frames. -/
theorem test_payload_max :
    respOf (exec (.segsend 0#29 zeroSig (List.replicate 65 0#8)) (bounded 4#5)) = some ⟨.tooLong, .empty⟩ ∧
      regsOf (exec (.segsend 0#29 zeroSig (List.replicate 65 0#8)) (bounded 4#5)) = some (4#5, 0#16, 0) ∧
      regsOf (exec (.segsend 0#29 zeroSig (List.replicate 64 0#8)) (bounded 4#5)) = some (5#5, 0#16, 10) := by decide

/-! ## Witnesses: the hypotheses of every obligation that has some -/

/-- A log of one frame, and a state that has sent it. -/
def sentOne : State := { at_ 1#5 0#16 with txLog := [⟨0x123#29, [0x99#8, 0xC0#8]⟩] }

theorem test_witness_reserved_select_code : 10 ≤ (0xA#4).toNat ∧ ¬ 10 ≤ (0x9#4).toNat := by decide

theorem test_witness_well_formed_command : (encode (.segsend 5#29 zeroSig [1#8])).wellFormed = true := by decide

theorem test_witness_step_runs :
    (present (encode (.hupb 7#32)) State.reset).host = .command (encode (.hupb 7#32)) :: [] ∧
      decode (encode (.hupb 7#32)) = .ok (.hupb 7#32) := ⟨rfl, rfl⟩

/-- The three statuses of a command, at the bound `PAYLOAD_MAX = 64` and one above it. -/
theorem test_witness_refusal_clauses :
    respOf (step (present ⟨0xF#4, Operands.zero⟩ (bounded 0#5))) = some ⟨.illegalOp, .empty⟩ ∧
      (respOf (step (present (encode (.segsend 0#29 zeroSig (List.replicate 65 0#8))) (bounded 0#5)))).map
        (·.status) = some .tooLong ∧
      (respOf (step (present (encode (.segsend 0#29 zeroSig (List.replicate 64 0#8))) (bounded 0#5)))).map
        (·.status) = some .ok := by decide

theorem test_witness_host_reset : ({ sentOne with host := [.reset] } : State).host = .reset :: [] := rfl

/-- `step s = next t` for the four kinds of step the whole-machine statements speak of. -/
theorem test_witness_steps :
    step State.reset = .next State.reset ∧
      (∃ t, step { sentOne with host := [.reset] } = .next t ∧ t.txLog = []) ∧
      (∃ t, step (present (encode (.segsend 0#29 zeroSig [])) sentOne) = .next t ∧ t.seqCtr = 2#5) ∧
      ∃ t, step (present (encode .crcinit) sentOne) = .next t ∧ t.crcAcc ≠ sentOne.crcAcc :=
  ⟨rfl, ⟨_, rfl, rfl⟩, ⟨_, rfl, by decide⟩, ⟨_, rfl, by decide⟩⟩

theorem test_witness_idempotent :
    (∀ b, Instr.f16enc 0x3F800000#32 ≠ .crcupd b) ∧
      (∀ id sig pl, Instr.f16enc 0x3F800000#32 ≠ .segsend id sig pl) ∧
      (∀ w, Instr.f16enc 0x3F800000#32 = .f16enc w → F32Finite w) ∧
      ∃ t, exec (.f16enc 0x3F800000#32) sentOne = .next t := by
  refine ⟨by simp, by simp, ?_, _, rfl⟩
  rintro _ ⟨⟩
  decide

theorem test_witness_invariants : CountsSends sentOne ∧ FramesFit sentOne := by
  unfold CountsSends FramesFit
  decide

theorem test_witness_nonfinite : f32Exp 0x7F800000#32 = 255#8 ∧ f32Exp 0x7FC00000#32 = 255#8 := by decide

theorem one_value : f32Value 0x3F800000#32 = 1 := by
  rw [f32Value_of_fields _ 0#1 127#8 0#23 (by decide) (by decide) (by decide)]
  rw [if_neg (by decide)]
  norm_num [signOf]

theorem two_pow_32_value : f32Value 0x4F800000#32 = 2 ^ 32 := by
  rw [f32Value_of_fields _ 0#1 159#8 0#23 (by decide) (by decide) (by decide)]
  rw [if_neg (by decide)]
  norm_num [signOf]

theorem minus_zero_value : f32Value 0x80000000#32 = 0 := by
  rw [f32Value_of_fields _ 1#1 0#8 0#23 (by decide) (by decide) (by decide)]
  norm_num [signOf]

theorem smallest_value : f32Value 0x38000000#32 = (2 : ℚ) ^ (-15 : ℤ) := by
  rw [f32Value_of_fields _ 0#1 112#8 0#23 (by decide) (by decide) (by decide)]
  rw [if_neg (by decide)]
  norm_num [signOf]

/-- 2^32, the wrap of 1. -/
theorem test_witness_wrap :
    F32Finite 0x3F800000#32 ∧ F32Finite 0x4F800000#32 ∧ f32Value 0x3F800000#32 ≠ 0 ∧
      f32Value 0x4F800000#32 = f32Value 0x3F800000#32 * (2 : ℚ) ^ (32 * (1 : ℤ)) := by
  refine ⟨by decide, by decide, by rw [one_value]; norm_num, ?_⟩
  rw [one_value, two_pow_32_value]
  norm_num

/-- The clauses of `F16encTruncatesExactly` and `F16encBitLevelForm`: an infinity, zero, a normal and a subnormal operand. -/
theorem test_witness_f16enc_clauses :
    f32Value 0x80000000#32 = 0 ∧ f32Exp 0x80000000#32 ≠ 255#8 ∧ f32Value 0x3F800000#32 ≠ 0 ∧
      1 ≤ (f32Exp 0x00800000#32).toNat ∧ f32Exp 0x007FFFFF#32 = 0#8 ∧
      2 ^ 22 ≤ (f32Frac 0x007FFFFF#32).toNat ∧ (f32Frac 0x007FFFFF#32).toNat < 2 ^ (22 + 1) := by
  exact ⟨minus_zero_value, by decide, by rw [one_value]; norm_num, by decide, by decide, by decide, by decide⟩

/-- 1.0 is in range and outside the collision interval. -/
theorem test_witness_round_trip :
    F32Finite 0x3F800000#32 ∧ (2 : ℚ) ^ (0 : ℤ) ≤ |f32Value 0x3F800000#32| ∧
      |f32Value 0x3F800000#32| < (2 : ℚ) ^ ((0 : ℤ) + 1) ∧
      ¬ ((2 : ℚ) ^ (-15 : ℤ) ≤ f32Value 0x3F800000#32 ∧
        f32Value 0x3F800000#32 < (2 : ℚ) ^ (-15 : ℤ) * (1025 / 1024)) := by
  rw [one_value]
  refine ⟨by decide, ?_, ?_, ?_⟩ <;> norm_num

/-- 2^-15 is in the collision interval. -/
theorem test_witness_collision : F32Finite 0x38000000#32 ∧ ZeroCollision (f32Value 0x38000000#32) := by
  refine ⟨by decide, 0, ?_⟩
  rw [smallest_value]
  norm_num

/-- A stream with a send and another read in between (program P3), and what the host sends after it. -/
def streamOps : List Instr := [.crcupd 0#8, .segsend 0x123#29 zeroSig [0x99#8], .crcrd, .crcupd 1#8]

theorem test_witness_streaming :
    (∀ i ∈ streamOps, i ≠ .crcinit) ∧
      ({ State.reset with
          host := commandOf .crcinit :: (streamOps.map commandOf ++ [commandOf .crcrd, .reset]) } : State).host =
        commandOf .crcinit :: (streamOps.map commandOf ++ commandOf .crcrd :: [.reset]) := ⟨by decide, rfl⟩

theorem test_witness_header_word : (0x1E0B85FF#32).toNat < 2 ^ 29 ∧ (0x1FFFFFFF#32).toNat < 2 ^ 29 := by decide

theorem test_witness_admits :
    Admits State.reset.params 100 ∧ Admits (bounded 0#5).params 64 ∧ ¬ Admits (bounded 0#5).params 65 := by
  refine ⟨?_, ?_, ?_⟩
  · intro m h
    cases h
  · intro m h
    cases h
    decide
  · intro h
    exact absurd (h 64 rfl) (by decide)

/-- A send of 7 bytes, the last that is one frame, and of 8, the first that is two. -/
theorem test_witness_send_lengths :
    (List.replicate 7 0#8).length ≤ 7 ∧ 8 ≤ (List.replicate 8 (0#8 : Byte)).length ∧
      respOf (exec (.segsend 1#29 zeroSig [1#8, 2#8, 3#8, 4#8, 5#8, 6#8, 7#8, 8#8]) (at_ 0#5 0#16)) =
        some ⟨.ok, .frames [⟨1#29, [0xA6#8, 0x1C#8, 1#8, 2#8, 3#8, 4#8, 5#8, 0x80#8]⟩,
          ⟨1#29, [6#8, 7#8, 8#8, 0x60#8]⟩]⟩ := by decide +kernel

/-- Frame 1, the last, of that send: an index, a frame and a next state for the statements about one frame. -/
theorem test_witness_last_frame :
    ∃ (t : State) (fs : List Frame) (f : Frame),
      exec (.segsend 1#29 zeroSig [1#8, 2#8, 3#8, 4#8, 5#8, 6#8, 7#8, 8#8]) (at_ 0#5 0#16) = .next t ∧
        t.resp = some ⟨.ok, .frames fs⟩ ∧ fs[1]? = some f ∧ f.data.length = 4 ∧ fs.length = 2 :=
  ⟨_, _, _, rfl, rfl, rfl, rfl, rfl⟩

theorem test_witness_too_long :
    (bounded 0#5).params.payloadMax = some 64 ∧ 64 < (List.replicate 65 (0#8 : Byte)).length ∧
      State.reset.params.payloadMax = none := by decide

theorem test_witness_pseudo_crc16 :
    ({ State.reset with host := (pseudoCrc16 [1#8]).map commandOf } : State).host =
      (pseudoCrc16 [1#8]).map commandOf ++ [] := rfl

end Sys2Proof.Tests
end

section
/-! PROOFS. What a step does with the host's next input (00_scope.md R3, R4; 20_memory.md R26). -/

namespace Sys2Proof.Machine

/-- Settles O4: of the cases of `step_cases`, only the one that runs an operation agrees with the host's input and with its
decoding. That the state holds what the host will send is assumption 3. -/
theorem stepRunsTheDecodedOperation : Obligations.StepRunsTheDecodedOperation := by
  intro s c rest i hhost hdec
  rcases step_cases s with ⟨idle, -⟩ | ⟨_, reset, -⟩ | ⟨c', rest', i', command, decoded, hstep⟩ |
    ⟨c', rest', op, command, reserved, -⟩
  · cases hhost.symm.trans idle
  · cases hhost.symm.trans reset
  · cases hhost.symm.trans command
    cases hdec.symm.trans decoded
    exact hstep
  · cases hhost.symm.trans command
    cases hdec.symm.trans reserved

end Sys2Proof.Machine
end

section
/-! PROOFS. What the steps of the block do to its state: parameters, counter, log, accumulator (10_state.md). -/

namespace Sys2Proof.Machine

open Sys2Proof.Safety

/-- The select code of a command is that of the operation it decodes to (R44). -/
theorem op_eq_selectCode_of_decode {c : Command} {i : Instr} (h : decode c = .ok i) : c.op = selectCode i :=
  (congrArg Command.op (Laws.ReencodingDropsForeignFields.of_decode c i h)).symm

/-- Everything an operation can do to the state: only respond, use up a draw, write the accumulator (`CRCINIT`, `CRCUPD`),
or send frames (`SEGSEND`). -/
theorem exec_cases {i : Instr} {s t : State} (h : exec i s = .next t) :
    (∃ st r, t = respond st r s) ∨
    (∃ r, t = answer r (draw s).2) ∨
    (∃ v, (selectCode i = 0x2#4 ∨ selectCode i = 0x3#4) ∧ t = answer .empty (setCrcAcc v s)) ∨
    ∃ fs, selectCode i = 0x5#4 ∧ t = answer (.frames fs) (advanceCounter (emitAll fs s)) := by
  cases i
  case f16enc val =>
    rw [exec, execF16enc_eq] at h
    split at h <;> cases h
    · exact .inr (.inl ⟨_, rfl⟩)
    · exact .inl ⟨_, _, rfl⟩
  case segsend id sig payload =>
    rw [exec, execSegsend_eq] at h
    split at h <;> cases h
    · exact .inl ⟨_, _, rfl⟩
    · exact .inr (.inr (.inr ⟨_, rfl, rfl⟩))
  case crcinit => cases h; exact .inr (.inr (.inl ⟨_, .inl rfl, rfl⟩))
  case crcupd b => cases h; exact .inr (.inr (.inl ⟨_, .inr rfl, rfl⟩))
  all_goals cases h; exact .inl ⟨_, _, rfl⟩

/-- The counter and the log move together: both kept, both reset, or a `SEGSEND` that counts and appends what it returns. -/
theorem step_seqCtr_txLog {s t : State} (h : step s = .next t) :
    (t.seqCtr = s.seqCtr ∧ t.txLog = s.txLog) ∨
    (∃ rest, s.host = .reset :: rest ∧ t.seqCtr = 0#5 ∧ t.txLog = []) ∨
    ∃ c rest fs, s.host = .command c :: rest ∧ c.op = 0x5#4 ∧ t.seqCtr = s.seqCtr + 1#5 ∧
      t.txLog = s.txLog ++ fs ∧ t.resp = some ⟨.ok, .frames fs⟩ := by
  rcases step_cases s with ⟨-, hstep⟩ | ⟨rest, reset, hstep⟩ | ⟨c, rest, i, command, decoded, hstep⟩ |
    ⟨c, rest, op, -, -, hstep⟩ <;> rw [hstep] at h
  · cases h
    exact .inl ⟨rfl, rfl⟩
  · cases h
    exact .inr (.inl ⟨rest, reset, rfl, rfl⟩)
  · rcases exec_cases h with ⟨_, _, rfl⟩ | ⟨_, rfl⟩ | ⟨_, -, rfl⟩ | ⟨fs, send, rfl⟩
    iterate 3 exact .inl ⟨rfl, rfl⟩
    exact .inr (.inr ⟨c, rest, fs, command, (op_eq_selectCode_of_decode decoded).trans send, rfl, rfl, rfl⟩)
  · cases h
    exact .inl ⟨rfl, rfl⟩

/-- Settles O10: reset and the refusal of a reserved select code keep the parameters as every operation does. The field that
holds them is the model's (assumption 6). -/
theorem parametersNeverChange : Obligations.ParametersNeverChange := by
  intro s t h
  rcases step_cases s with ⟨-, hstep⟩ | ⟨_, -, hstep⟩ | ⟨_, _, i, -, -, hstep⟩ | ⟨_, _, _, -, -, hstep⟩ <;>
    rw [hstep] at h
  · cases h
    rfl
  · cases h
    rfl
  · exact (exec_keeps_params_and_host i _ t h).1
  · cases h
    rfl

/-- Settles O11: the counter's half of `step_seqCtr_txLog`; adding 1 on 5 bits is adding 1 modulo 32. -/
theorem onlySendsAndResetChangeTheCounter : Obligations.OnlySendsAndResetChangeTheCounter := by
  intro s t h
  rcases step_seqCtr_txLog h with ⟨kept, -⟩ | ⟨rest, reset, zero, -⟩ | ⟨c, rest, _, command, send, counted, -, -⟩
  · exact .inl kept
  · exact .inr (.inl ⟨rest, reset, zero⟩)
  · exact .inr (.inr ⟨c, rest, command, send, by rw [counted, BitVec.toNat_add]; rfl⟩)

/-- Settles O12: the log's half of `step_seqCtr_txLog`. -/
theorem theLogOnlyGrowsBySends : Obligations.TheLogOnlyGrowsBySends := by
  intro s t h
  rcases step_seqCtr_txLog h with ⟨-, kept⟩ | ⟨rest, reset, -, empty⟩ |
    ⟨c, rest, fs, command, send, -, appended, returned⟩
  · exact .inl kept
  · exact .inr (.inl ⟨rest, reset, empty⟩)
  · exact .inr (.inr ⟨c, rest, fs, command, send, appended, returned⟩)

/-- A log kept from `s` and kept from `s` with another log is, in both runs, the log before with no frame appended. -/
theorem exec_appends_nothing_of_log_kept {i : Instr} {s t : State} {log : List Frame} (h : exec i s = .next t)
    (kept : t.txLog = s.txLog) (h' : exec i { s with txLog := log } = .next { t with txLog := log }) :
    ∃ (t : State) (fs : List Frame), exec i s = .next t ∧ t.txLog = s.txLog ++ fs ∧
      exec i { s with txLog := log } = .next { t with txLog := log ++ fs } :=
  ⟨t, [], h, by rw [kept, List.append_nil], by rw [h', List.append_nil]⟩

/-- Settles O13: a completed `SEGSEND` appends frames made from other fields alone, and every other outcome keeps the log.
The equal draw is assumption 10. -/
theorem noOperationReadsTheLog : Obligations.NoOperationReadsTheLog := by
  intro i s log
  cases i
  case f16enc val =>
    by_cases nonFinite : f32NonFinite val = true
    · exact exec_appends_nothing_of_log_kept (if_pos nonFinite) rfl (if_pos nonFinite)
    · exact exec_appends_nothing_of_log_kept (if_neg nonFinite) rfl (if_neg nonFinite)
  case segsend id sig payload =>
    by_cases tooLong : payloadTooLong s.params payload.length = true
    · exact exec_appends_nothing_of_log_kept (if_pos tooLong) rfl (if_pos tooLong)
    · exact ⟨_, _, if_neg tooLong, rfl, if_neg tooLong⟩
  all_goals exact exec_appends_nothing_of_log_kept rfl rfl rfl

/-- Settles O14: of the cases of `exec_cases`, only the one with select code 0x2 or 0x3 touches the accumulator. -/
theorem onlyCrcOperationsAndResetWriteTheAccumulator :
    Obligations.OnlyCrcOperationsAndResetWriteTheAccumulator := by
  intro s t h changed
  rcases step_cases s with ⟨-, hstep⟩ | ⟨rest, reset, -⟩ | ⟨c, rest, i, command, decoded, hstep⟩ |
    ⟨_, _, _, -, -, hstep⟩
  · rw [hstep] at h
    cases h
    exact absurd rfl changed
  · exact .inl ⟨rest, reset⟩
  · rw [hstep] at h
    rcases exec_cases h with ⟨_, _, rfl⟩ | ⟨_, rfl⟩ | ⟨_, crcOp, -⟩ | ⟨_, -, rfl⟩
    · exact absurd rfl changed
    · exact absurd rfl changed
    · rw [← op_eq_selectCode_of_decode decoded] at crcOp
      exact .inr ⟨c, rest, command, crcOp⟩
    · exact absurd rfl changed
  · rw [hstep] at h
    cases h
    exact absurd rfl changed

/-- Settles O7: the fields of the record that `State.resetWith` writes out (R18). -/
theorem resetValues : Obligations.ResetValues :=
  ⟨fun _ _ => ⟨rfl, rfl, rfl, rfl⟩, rfl, rfl⟩

/-- Settles O18: the empty log has no send to count and no frame to measure, and the counter starts at 0. -/
theorem resetMeetsTheInvariants : Obligations.ResetMeetsTheInvariants := by
  intro p acc
  constructor
  · exact ⟨rfl, rfl⟩
  · intro f emitted
    exact absurd emitted List.not_mem_nil

end Sys2Proof.Machine
end

section
/-! PROOFS. The host's inputs one at a time, idempotent operations, and signatures held as integers (20_memory.md). -/

namespace Sys2Proof.Machine

open Sys2Proof.Safety

/-- Settles O9: each case of `step_cases` names the host's inputs, and what runs after the first is taken touches no other.
That the block is idle on none is assumption 4. -/
theorem aStepTakesOneHostInput : Obligations.AStepTakesOneHostInput := by
  intro s t h
  rcases step_cases s with ⟨idle, hstep⟩ | ⟨rest, reset, hstep⟩ | ⟨c, rest, i, command, -, hstep⟩ |
    ⟨c, rest, op, command, -, hstep⟩ <;> rw [hstep] at h
  · cases h
    exact ⟨by rw [idle, List.tail_nil], fun _ => rfl⟩
  · cases h
    exact ⟨by rw [reset, resetBlock_host, List.tail_cons], by simp [reset]⟩
  · have kept : t.host = rest := (exec_keeps_params_and_host i _ t h).2
    exact ⟨by rw [command, kept, List.tail_cons], by simp [command]⟩
  · cases h
    exact ⟨by rw [command, refuse_host, List.tail_cons], by simp [command]⟩

/-- Of a finite operand `F16ENC` answers a word that depends on the operand alone, with no draw (R54). -/
theorem exec_f16enc_of_finite {val : U32} (finite : F32Finite val) (s : State) :
    exec (.f16enc val) s = .next (answer (.bits (f16Encode val)) s) := by
  have notNonFinite : ¬ f32NonFinite val = true := by simpa [f32NonFinite] using finite
  rw [exec, execF16enc_eq, if_neg notNonFinite]

/-- Settles O15: a pure operation writes at most `INIT` to the accumulator and then a response that the write does not change,
so the second run writes the same again. -/
theorem pureOperationsAreIdempotent : Obligations.PureOperationsAreIdempotent := by
  intro i s t notCrcupd notSegsend finite h
  cases i
  case crcupd b => exact absurd rfl (notCrcupd b)
  case segsend id sig payload => exact absurd rfl (notSegsend id sig payload)
  case f16enc val =>
    have finiteVal : F32Finite val := finite val rfl
    rw [exec_f16enc_of_finite finiteVal] at h ⊢
    cases h
    rfl
  all_goals
    cases h
    rfl

/-- Settles O55: the slice of 8 bits from bit `8 j` is the quotient by `2 ^ (8 j)` modulo `2 ^ 8` (R23). -/
theorem integerSignatureIsLittleEndian : Obligations.IntegerSignatureIsLittleEndian := by
  intro S j h
  rw [signatureOfInt, Vector.getElem_ofFn, BitVec.extractLsb'_toNat, Nat.shiftRight_eq_div_pow]

end Sys2Proof.Machine
end

section
/-! PROOFS. The decoder and the encoder of commands, each the inverse of the other (30_encoding.md R43 to R45). -/

namespace Sys2Proof

/-- The decoder answers an operation for the select codes below 10 and rejects every other by name (R44, R45). -/
theorem decode_cases (c : Command) :
    (c.op.toNat < 10 ∧ ∃ i, decode c = .ok i) ∨
      (10 ≤ c.op.toNat ∧ decode c = .error (.reservedSelect c.op)) := by
  unfold decode
  split
  iterate 10 next assigned => exact .inl ⟨by rw [assigned]; decide, _, rfl⟩
  next =>
    refine .inr ⟨?_, rfl⟩
    simp only [imp_false] at *
    bv_omega

theorem decode_encode (i : Instr) : decode (encode i) = .ok i := by
  cases i <;> rfl

theorem selectCode_lt_ten (i : Instr) : (selectCode i).toNat < 10 := by
  cases i <;> simp [selectCode]

/-- An operation's command has nothing in the fields the operation does not have (R43). -/
theorem operandsOf_restrict (i : Instr) : (operandsOf i).restrict (selectCode i) = operandsOf i := by
  cases i <;> rfl

theorem wellFormed_iff (c : Command) :
    c.wellFormed = true ↔ c.op.toNat < 10 ∧ c.operands = c.operands.restrict c.op := by
  simp only [Command.wellFormed, Command.selectAssigned, Command.onlyItsOperands, Bool.and_eq_true,
    decide_eq_true_eq]

theorem encode_wellFormed (i : Instr) : (encode i).wellFormed = true :=
  (wellFormed_iff (encode i)).2 ⟨selectCode_lt_ten i, (operandsOf_restrict i).symm⟩

/-- Settles O2: a well-formed command decodes because its select code is assigned, and encoding the result again drops only
foreign operand fields, of which it has none. That a command carries all operand fields is assumption 1. -/
theorem decodeAndEncodeAgree : Obligations.DecodeAndEncodeAgree := by
  refine ⟨fun i => ⟨encode_wellFormed i, decode_encode i⟩, fun c wellFormed => ?_⟩
  obtain ⟨assigned, ownOperands⟩ := (wellFormed_iff c).1 wellFormed
  rcases decode_cases c with ⟨-, i, decoded⟩ | ⟨reserved, -⟩
  · have reencoded := Laws.ReencodingDropsForeignFields.of_decode c i decoded
    rw [← ownOperands] at reencoded
    exact ⟨i, decoded, reencoded⟩
  · omega

/-- Settles O1: the rows of the decoder's table, and `decode_cases` for the reserved codes. -/
theorem selectCodesNameTheTenOperations : Obligations.SelectCodesNameTheTenOperations := by
  intro l
  refine ⟨rfl, rfl, rfl, rfl, rfl, rfl, rfl, rfl, rfl, rfl, fun op reserved => ?_⟩
  rcases decode_cases ⟨op, l⟩ with ⟨assigned, -⟩ | ⟨-, rejected⟩
  · exact absurd assigned reserved.not_gt
  · exact rejected

/-- Settles O3: each word is its select code with zero operands (assumption 2), so that its row of the decoder's table
computes. -/
theorem writtenOutWordsDecode : Obligations.WrittenOutWordsDecode :=
  ⟨rfl, rfl, rfl, rfl, rfl, rfl⟩

end Sys2Proof
end

section
/-! PROOFS. A run of presented operations, and the pseudo-operation `CRC16` (30_encoding.md R48, 41_crc16.md R62 to R66). -/

namespace Sys2Proof.Machine

open Sys2Proof.Safety

theorem run_succ_of_step (M : Host.Core) {s t : M.State} (k : ℕ) (next : M.step s = .next t) :
    M.run (k + 1) s = M.run k t := by
  rw [Host.Core.run, next]

/-- A run whose next input presents an operation that completes goes on from the operation's next state. -/
theorem run_commandOf {s t : State} {i : Instr} {rest : List HostInput} (k : ℕ) (presented : s.host = commandOf i :: rest)
    (completes : exec i { s with host := rest } = .next t) :
    Host.Core.run core (k + 1) s = Host.Core.run core k t :=
  run_succ_of_step core k
    ((stepRunsTheDecodedOperation s (encode i) rest i presented (decode_encode i)).trans completes)

/-- `CRCUPD` of each byte and then `CRCRD`, from any accumulator value: the read returns the fold of the bytes. -/
theorem run_crcupd_crcrd (bytes : List Byte) (rest : List HostInput) (s : State)
    (presented : s.host = (bytes.map Instr.crcupd ++ [Instr.crcrd]).map commandOf ++ rest) :
    Host.Core.run core (bytes.length + 1) s = .next { s with
      crcAcc := crcFold s.params.crc s.crcAcc bytes
      resp := some ⟨.ok, .crc (crcFin s.params.crc (crcFold s.params.crc s.crcAcc bytes))⟩
      host := rest } := by
  induction bytes generalizing s with
  | nil => exact run_commandOf 0 presented rfl
  | cons b bs ih =>
    have absorbs := run_commandOf (i := .crcupd b) (bs.length + 1) presented rfl
    exact absorbs.trans (ih _ rfl)

/-- Settles O34: `CRCINIT` puts the accumulator at `INIT`, from where `run_crcupd_crcrd` computes the function `CRC16`. -/
theorem pseudoCrc16ReturnsTheChecksum : Obligations.PseudoCrc16ReturnsTheChecksum := by
  intro s bytes rest presented
  have initialises := run_commandOf (i := .crcinit) (bytes.length + 1) presented rfl
  exact initialises.trans (run_crcupd_crcrd bytes rest _ rfl)

end Sys2Proof.Machine
end

section
/-! PROOFS. What a `SEGSEND` answers, and the control bytes of its frames (30_encoding.md R34, R35;
42_segmentation.md R70 to R72). -/

namespace Sys2Proof.Machine

open Sys2Proof.Safety

theorem payloadTooLong_eq_false {p : Params} {L : ℕ} (admits : Admits p L) : ¬ payloadTooLong p L = true := by
  rw [payloadTooLong_iff]
  rintro ⟨m, finite, shorter⟩
  exact absurd (admits m finite) shorter.not_ge

/-- A send within `PAYLOAD_MAX` completes: its frames are emitted and returned, and the counter advances (R70, R74). -/
theorem exec_segsend_of_admits {s : State} {payload : List Byte} (admits : Admits s.params payload.length)
    (id : Ident) (sig : Signature) :
    exec (.segsend id sig payload) s = .next { s with
      seqCtr := s.seqCtr + 1#5
      txLog := s.txLog ++ segFrames s.params.crc id sig payload s.seqCtr
      resp := some ⟨.ok, .frames (segFrames s.params.crc id sig payload s.seqCtr)⟩ } := by
  rw [exec, execSegsend_eq, if_neg (payloadTooLong_eq_false admits)]
  rfl

/-- The frames a `SEGSEND` returns are those of `segFrames` at the counter before it (R70). -/
theorem frames_of_exec_segsend {id : Ident} {sig : Signature} {payload : List Byte} {s t : State} {fs : List Frame}
    (completes : exec (.segsend id sig payload) s = .next t) (returned : t.resp = some ⟨.ok, .frames fs⟩) :
    fs = segFrames s.params.crc id sig payload s.seqCtr := by
  rw [exec, execSegsend_eq] at completes
  split at completes <;> cases completes <;> cases returned
  rfl

/-- The three cases of a frame of a send: the only one, the first of several, a later one of several (R71, R72). -/
theorem segFrames_getElem?_cases {p : CrcParams} {id : Ident} {sig : Signature} {payload : List Byte} {t : BitVec 5}
    {i : ℕ} {f : Frame} (frame : (segFrames p id sig payload t)[i]? = some f) :
    ((segFrames p id sig payload t).length = 1 ∧ i = 0 ∧ f ∈ segSingle id payload t) ∨
    (2 ≤ (segFrames p id sig payload t).length ∧ i = 0 ∧
      f = segFirst id (crc16 p (sig.toList ++ payload)) payload t) ∨
    (1 ≤ i ∧ i < (segFrames p id sig payload t).length ∧
      f = segNext id payload t (segFrames p id sig payload t).length i) := by
  obtain ⟨inRange, -⟩ := List.getElem?_eq_some_iff.1 frame
  by_cases short : payload.length ≤ 7
  · rw [segFrames, if_pos short] at frame inRange ⊢
    exact .inl ⟨rfl, Nat.lt_one_iff.1 inRange, List.mem_of_getElem? frame⟩
  · rw [segFrames, if_neg short] at frame inRange ⊢
    have count := segMulti_length p id sig payload t (by omega)
    have bounds := segCount_bounds payload.length
    rw [count] at inRange ⊢
    cases i with
    | zero => exact .inr (.inl ⟨by omega, rfl, (Option.some.inj frame).symm⟩)
    | succ j =>
      rw [segMulti, List.getElem?_cons_succ, List.getElem?_map, List.getElem?_range (by omega)] at frame
      exact .inr (.inr ⟨by omega, inRange, (Option.some.inj frame).symm⟩)

theorem control_append (id : Ident) (bytes : List Byte) (c : Byte) : control ⟨id, bytes ++ [c]⟩ = c := by
  simp [Safety.control]

/-- The control byte of frame `i`: start on the first, end on the last, toggle on odd indices (R35, R71, R72). -/
theorem control_segFrames {p : CrcParams} {id : Ident} {sig : Signature} {payload : List Byte} {t : BitVec 5}
    {i : ℕ} {f : Frame} (frame : (segFrames p id sig payload t)[i]? = some f) :
    control f = controlByte (decide (i = 0)) (decide (i + 1 = (segFrames p id sig payload t).length))
      (decide (i % 2 = 1)) t := by
  rcases segFrames_getElem?_cases frame with ⟨one, rfl, only⟩ | ⟨several, rfl, rfl⟩ | ⟨later, inRange, rfl⟩
  · rw [one, List.mem_singleton.1 only, control_append]
    rfl
  · have notLast : ¬ 0 + 1 = (segFrames p id sig payload t).length := by omega
    rw [segFirst, control_append, decide_eq_false notLast]
    rfl
  · have notFirst : ¬ i = 0 := by omega
    have last : i = (segFrames p id sig payload t).length - 1 ↔ i + 1 = (segFrames p id sig payload t).length := by omega
    rw [segNext, control_append, decide_eq_false notFirst, decide_eq_decide.2 last]

theorem controlByte_toNat : ∀ (a b c : Bool) (t : BitVec 5), (controlByte a b c t).toNat =
    t.toNat + ((if a then 0x80 else 0) + (if b then 0x40 else 0) + (if c then 0x20 else 0)) := by decide

/-- Settles O48: the number of the control byte that `control_segFrames` names, case by case; the counter is below 0x20, and
start and toggle exclude each other because index 0 is even. -/
theorem controlBytesOfASend : Obligations.ControlBytesOfASend := by
  intro id sig payload s t fs i f completes returned frame
  obtain rfl := frames_of_exec_segsend completes returned
  obtain ⟨inRange, -⟩ := List.getElem?_eq_some_iff.1 frame
  have counterFits := s.seqCtr.isLt
  rw [control_segFrames frame, controlByte_toNat]
  simp only [decide_eq_true_eq]
  refine ⟨?_, ?_, ?_⟩ <;> split_ifs <;> omega

end Sys2Proof.Machine
end

section
/-! PROOFS. The identifier of a packed header, and the pseudo-operations `SENDB` and `SENDU` (30_encoding.md R31, R32, R48). -/

namespace Sys2Proof.Machine

open Sys2Proof.Safety

theorem segFrames_ne_nil (p : CrcParams) (id : Ident) (sig : Signature) (payload : List Byte) (t : BitVec 5) :
    segFrames p id sig payload t ≠ [] := by
  unfold segFrames
  split
  · exact List.cons_ne_nil _ _
  · exact List.cons_ne_nil _ _

/-- Every frame of a send carries the identifier of the send (R71, R72). -/
theorem id_of_mem_segFrames {p : CrcParams} {id : Ident} {sig : Signature} {payload : List Byte} {t : BitVec 5}
    {f : Frame} (emitted : f ∈ segFrames p id sig payload t) : f.id = id := by
  obtain ⟨i, frame⟩ := List.mem_iff_getElem?.1 emitted
  rcases segFrames_getElem?_cases frame with ⟨-, -, only⟩ | ⟨-, -, rfl⟩ | ⟨-, -, rfl⟩
  · rw [List.mem_singleton.1 only]
  · rfl
  · rfl

/-- A send of what a pack has just returned goes out under the identifier of the packed header (R14, R48). -/
theorem sendPacked_of_admits {s : State} {payload : List Byte} (admits : Admits s.params payload.length)
    (sig : Signature) (w : U32) :
    ∃ (u : State) (fs : List Frame), sendPacked sig payload (.next (answer (.packed w) s)) = .next u ∧
      u.txLog = s.txLog ++ fs ∧ u.resp = some ⟨.ok, .frames fs⟩ ∧ fs ≠ [] ∧ ∀ f ∈ fs, f.id = identOfHeader w :=
  ⟨_, _, exec_segsend_of_admits (s := answer (.packed w) s) admits (identOfHeader w) sig, rfl, rfl,
    segFrames_ne_nil _ _ _ _ _, fun _ => id_of_mem_segFrames⟩

/-- Bit `i` of a field assembled into a container: bit `i - p` of the operand inside the field, 0 outside (R41). -/
theorem getLsbD_putField (n p : ℕ) (v : U32) (i : ℕ) :
    (putField n p v).getLsbD i = (decide (p ≤ i ∧ i < p + n ∧ i < 32) && v.getLsbD (i - p)) := by
  rw [putField, BitVec.getLsbD_shiftLeft, BitVec.getLsbD_and, BitVec.getLsbD_ofNat, Nat.testBit_two_pow_sub_one]
  grind

/-- The identifier of a packed broadcast header is its four masked fields joined (R31): bit `i` of both is the bit of the operand
whose field holds `i`. -/
theorem identOfHeader_packBroadcast (p t v a : U32) :
    identOfHeader (packBroadcast p t v a) = p.setWidth 5 ++ t.setWidth 16 ++ v.setWidth 1 ++ a.setWidth 7 := by
  apply BitVec.eq_of_getLsbD_eq
  intro i hi
  simp only [identOfHeader, packBroadcast, BitVec.getLsbD_extractLsb', BitVec.getLsbD_or, getLsbD_putField,
    BitVec.getLsbD_append, BitVec.getLsbD_setWidth]
  grind

/-- The identifier of a packed unicast header is its six masked fields joined (R32), bit by bit as for broadcast. -/
theorem identOfHeader_packUnicast (p t r d v a : U32) :
    identOfHeader (packUnicast p t r d v a) =
      p.setWidth 5 ++ t.setWidth 8 ++ r.setWidth 1 ++ d.setWidth 7 ++ v.setWidth 1 ++ a.setWidth 7 := by
  apply BitVec.eq_of_getLsbD_eq
  intro i hi
  simp only [identOfHeader, packUnicast, BitVec.getLsbD_extractLsb', BitVec.getLsbD_or, getLsbD_putField,
    BitVec.getLsbD_append, BitVec.getLsbD_setWidth]
  grind

/-- Settles O53: the pack leaves the parameters and the log, so the send after it completes, under the identifier of the
packed broadcast header. -/
theorem sendbSendsUnderThePackedHeader : Obligations.SendbSendsUnderThePackedHeader := by
  intro p t v a sig payload s admits
  rw [← identOfHeader_packBroadcast]
  exact sendPacked_of_admits admits sig (packBroadcast p t v a)

/-- Settles O54: as for `SENDB`, with the packed unicast header. -/
theorem senduSendsUnderThePackedHeader : Obligations.SenduSendsUnderThePackedHeader := by
  intro p t r d v a sig payload s admits
  rw [← identOfHeader_packUnicast]
  exact sendPacked_of_admits admits sig (packUnicast p t r d v a)

end Sys2Proof.Machine
end

section
/-! PROOFS. The sign, the magnitude and the fields of the float words (30_encoding.md R39, R40;
40_f16_codec.md R51 to R53). -/

namespace Sys2Proof.Machine

open Sys2Proof.Safety

theorem abs_signOf (b : BitVec 1) : |signOf b| = 1 := by
  unfold signOf
  split_ifs <;> norm_num

theorem signOf_zero : signOf 0#1 = 1 := rfl

theorem signOf_one : signOf 1#1 = -1 := rfl

theorem signOf_mul_signOf (b : BitVec 1) : signOf b * signOf b = 1 := by
  rw [← abs_mul_abs_self, abs_signOf, one_mul]

theorem signOf_pos_iff (b : BitVec 1) : 0 < signOf b ↔ b = 0#1 := by
  unfold signOf
  split_ifs with zero
  · simp [zero]
  · simp [zero]

theorem signOf_injective {a b : BitVec 1} (h : signOf a = signOf b) : a = b := by
  have zero : a = 0#1 ↔ b = 0#1 := by rw [← signOf_pos_iff, h, signOf_pos_iff]
  bv_omega

/-- The value of a word is its sign times its whole number of units of 2^-149 (R40). -/
theorem f32Value_eq_signOf_mul_units (w : U32) :
    f32Value w = signOf (f32Sign w) * ((f32Units w : ℚ) * 2 ^ (-149 : ℤ)) := by
  unfold f32Value f32Units
  split_ifs with subnormal
  · ring
  · obtain ⟨n, hn⟩ : ∃ n, (f32Exp w).toNat = n + 1 :=
      Nat.exists_eq_succ_of_ne_zero fun h => subnormal (BitVec.eq_of_toNat_eq h)
    have exponent : (2 : ℚ) ^ (((n + 1 : ℕ) : ℤ) - 127) = 2 ^ n * 2 ^ 23 * 2 ^ (-149 : ℤ) := by
      rw [← zpow_natCast, ← zpow_natCast, ← zpow_add₀ two_ne_zero, ← zpow_add₀ two_ne_zero]
      congr 1
      push_cast
      ring
    rw [hn, exponent, Nat.add_sub_cancel]
    push_cast
    ring

theorem abs_f32Value_eq_units (w : U32) : |f32Value w| = (f32Units w : ℚ) * 2 ^ (-149 : ℤ) := by
  rw [f32Value_eq_signOf_mul_units, abs_mul, abs_signOf, one_mul, abs_of_nonneg (by positivity)]

theorem f32Value_eq_signOf_mul_abs (w : U32) : f32Value w = signOf (f32Sign w) * |f32Value w| := by
  rw [abs_f32Value_eq_units]
  exact f32Value_eq_signOf_mul_units w

theorem abs_f32Value_eq_signOf_mul (w : U32) : |f32Value w| = signOf (f32Sign w) * f32Value w := by
  rw [abs_f32Value_eq_units, f32Value_eq_signOf_mul_units, ← mul_assoc, signOf_mul_signOf, one_mul]

theorem f32Value_eq_zero_iff (w : U32) : f32Value w = 0 ↔ f32Units w = 0 := by
  rw [← abs_eq_zero, abs_f32Value_eq_units]
  simp

/-- The magnitude of a normal word (R40). -/
theorem abs_f32Value_of_normal {w : U32} (normal : f32Exp w ≠ 0#8) :
    |f32Value w| = 2 ^ (((f32Exp w).toNat : ℤ) - 127) * (1 + ((f32Frac w).toNat : ℚ) / 2 ^ 23) := by
  rw [f32Value, if_neg normal, mul_assoc, abs_mul, abs_signOf, one_mul, abs_of_nonneg (by positivity)]

theorem f32Units_of_subnormal {w : U32} (subnormal : f32Exp w = 0#8) : f32Units w = (f32Frac w).toNat :=
  if_pos subnormal

@[simp] theorem f32Sign_append (s : BitVec 1) (e : BitVec 8) (f : BitVec 23) : f32Sign (s ++ e ++ f) = s := by
  rw [f32Sign, BitVec.extractLsb'_append_eq_of_le (by omega), BitVec.extractLsb'_append_eq_left]

@[simp] theorem f32Exp_append (s : BitVec 1) (e : BitVec 8) (f : BitVec 23) : f32Exp (s ++ e ++ f) = e := by
  rw [f32Exp, BitVec.extractLsb'_append_eq_of_le (by omega), BitVec.extractLsb'_append_eq_right]

@[simp] theorem f32Frac_append (s : BitVec 1) (e : BitVec 8) (f : BitVec 23) : f32Frac (s ++ e ++ f) = f := by
  rw [f32Frac, BitVec.extractLsb'_append_eq_right]

/-- Every half-precision word is the one packed of its three fields (R39). -/
theorem exists_eq_f16Pack (b : U16) : ∃ s e q, b = f16Pack s e q := by
  refine ⟨b.extractLsb' 15 1, b.extractLsb' 10 5, b.extractLsb' 0 10, ?_⟩
  rw [f16Pack, BitVec.extractLsb'_append_extractLsb'_eq_extractLsb' (by omega),
    BitVec.extractLsb'_append_extractLsb'_eq_extractLsb' (by omega), BitVec.extractLsb'_eq_self]

@[simp] theorem f16Pack_sign (s : BitVec 1) (e : BitVec 5) (q : BitVec 10) :
    (f16Pack s e q).extractLsb' 15 1 = s := by
  rw [f16Pack, BitVec.extractLsb'_append_eq_of_le (by omega), BitVec.extractLsb'_append_eq_left]

@[simp] theorem f16Pack_exp (s : BitVec 1) (e : BitVec 5) (q : BitVec 10) :
    (f16Pack s e q).extractLsb' 10 5 = e := by
  rw [f16Pack, BitVec.extractLsb'_append_eq_of_le (by omega), BitVec.extractLsb'_append_eq_right]

@[simp] theorem f16Pack_frac (s : BitVec 1) (e : BitVec 5) (q : BitVec 10) :
    (f16Pack s e q).extractLsb' 0 10 = q := by
  rw [f16Pack, BitVec.extractLsb'_append_eq_right]

theorem f16Pack_inj {s s' : BitVec 1} {e e' : BitVec 5} {q q' : BitVec 10} :
    f16Pack s e q = f16Pack s' e' q' ↔ s = s' ∧ e = e' ∧ q = q' := by
  refine ⟨fun h => ⟨?_, ?_, ?_⟩, fun ⟨hs, he, hq⟩ => by rw [hs, he, hq]⟩
  · simpa using congrArg (BitVec.extractLsb' 15 1) h
  · simpa using congrArg (BitVec.extractLsb' 10 5) h
  · simpa using congrArg (BitVec.extractLsb' 0 10) h

theorem f16Decode_zero : f16Decode 0#16 = 0#32 := rfl

/-- A nonzero word decodes field by field: the exponent is rebiased by 112, the fraction is extended below (R53). -/
theorem f16Decode_f16Pack {s : BitVec 1} {e : BitVec 5} {q : BitVec 10} (nonzero : f16Pack s e q ≠ 0#16) :
    f16Decode (f16Pack s e q) = s ++ (e.setWidth 8 + 112#8) ++ (q ++ 0#13) := by
  rw [f16Decode, if_neg nonzero, f16Pack_sign, f16Pack_exp, f16Pack_frac]

theorem toNat_rebias (e : BitVec 5) : (e.setWidth 8 + 112#8).toNat = e.toNat + 112 := by
  have := e.isLt
  rw [BitVec.toNat_add, BitVec.toNat_setWidth, BitVec.toNat_ofNat]
  omega

theorem f32Exp_f16Decode_f16Pack {s : BitVec 1} {e : BitVec 5} {q : BitVec 10} (nonzero : f16Pack s e q ≠ 0#16) :
    (f32Exp (f16Decode (f16Pack s e q))).toNat = e.toNat + 112 := by
  rw [f16Decode_f16Pack nonzero, f32Exp_append, toNat_rebias]

/-- The exact value of a nonzero decoded word, from the fields (R51, R52). -/
theorem f32Value_f16Decode_f16Pack {s : BitVec 1} {e : BitVec 5} {q : BitVec 10} (nonzero : f16Pack s e q ≠ 0#16) :
    f32Value (f16Decode (f16Pack s e q)) = signOf s * (2 ^ ((e.toNat : ℤ) - 15) * (1 + (q.toNat : ℚ) / 1024)) := by
  have normal : f32Exp (f16Decode (f16Pack s e q)) ≠ 0#8 := by
    intro subnormal
    have exponent := f32Exp_f16Decode_f16Pack nonzero
    rw [subnormal, BitVec.toNat_ofNat] at exponent
    omega
  have fraction : ((q ++ 0#13).toNat : ℚ) = q.toNat * 2 ^ 13 := by
    rw [BitVec.toNat_append, Nat.shiftLeft_eq]
    norm_num
  have exponent : ((e.toNat + 112 : ℕ) : ℤ) - 127 = e.toNat - 15 := by
    push_cast
    ring
  rw [f32Value_eq_signOf_mul_abs, abs_f32Value_of_normal normal, f32Exp_f16Decode_f16Pack nonzero, exponent,
    f16Decode_f16Pack nonzero, f32Sign_append, f32Frac_append, fraction]
  ring

theorem f32Value_f16Decode (b : U16) : f32Value (f16Decode b) = h16Value b := by
  by_cases zero : b = 0#16
  · rw [h16Value, if_pos zero, zero, f16Decode_zero, f32Value_eq_zero_iff]
    rfl
  · obtain ⟨s, e, q, rfl⟩ := exists_eq_f16Pack b
    rw [f32Value_f16Decode_f16Pack zero, h16Value, if_neg zero, f16Pack_sign, f16Pack_exp, f16Pack_frac, mul_assoc]

theorem f32Finite_f16Decode (b : U16) : F32Finite (f16Decode b) := by
  by_cases zero : b = 0#16
  · rw [zero]
    decide
  · obtain ⟨s, e, q, rfl⟩ := exists_eq_f16Pack b
    intro nonFinite
    have exponent := f32Exp_f16Decode_f16Pack zero
    have := e.isLt
    rw [nonFinite, BitVec.toNat_ofNat] at exponent
    omega

/-- Settles O19: the exact value is that of `f32Value_f16Decode`. -/
theorem f16decReturnsTheExactValue : Obligations.F16decReturnsTheExactValue :=
  ⟨fun _ => rfl, fun bits _ =>
    ⟨f16Decode bits, rfl, f32Finite_f16Decode bits, f32Value_f16Decode bits, fun zero => zero ▸ f16Decode_zero⟩⟩

/-- A word joined of its three fields is the disjunction of the fields shifted into place (R40). -/
theorem append_eq_or_shiftLeft (s : BitVec 1) (e : BitVec 8) (q : BitVec 10) :
    (s ++ e ++ (q ++ 0#13) : U32) =
      (s.setWidth 32 <<< 31) ||| (e.setWidth 32 <<< 23) ||| (q.setWidth 32 <<< 13) := by
  apply BitVec.eq_of_getLsbD_eq
  intro i hi
  simp only [BitVec.getLsbD_or, BitVec.getLsbD_append, BitVec.getLsbD_shiftLeft, BitVec.getLsbD_setWidth,
    BitVec.getLsbD_zero]
  grind

/-- Settles O20: `f16Decode_f16Pack` with the fields shifted into place; an exponent field of 5 bits rebiased by 112 lies in
112 to 143. -/
theorem f16decBitLevelForm : Obligations.F16decBitLevelForm := by
  intro bits s
  refine ⟨f16Decode bits, rfl, fun zero => zero ▸ f16Decode_zero, fun nonzero => ?_⟩
  obtain ⟨sign, e, q, rfl⟩ := exists_eq_f16Pack bits
  have rebias : (e.setWidth 8 + 112#8).setWidth 32 = e.setWidth 32 + 112#32 := by
    have := e.isLt
    apply BitVec.eq_of_toNat_eq
    rw [BitVec.toNat_setWidth, toNat_rebias, BitVec.toNat_add, BitVec.toNat_setWidth, BitVec.toNat_ofNat]
    omega
  have exponent := f32Exp_f16Decode_f16Pack nonzero
  have := e.isLt
  refine ⟨?_, by omega, by omega⟩
  rw [f16Decode_f16Pack nonzero, append_eq_or_shiftLeft, rebias, f16Pack_sign, f16Pack_exp, f16Pack_frac]

end Sys2Proof.Machine
end

section
/-! PROOFS. The exponent and the truncated fraction of a magnitude, and `F16ENC` as the word packed of them
(40_f16_codec.md R54). -/

namespace Sys2Proof.Machine

open Sys2Proof.Safety

/-- `e` is `floor(log2 x)` and `q` is `trunc(1024 (x / 2^e - 1))`, as R54 defines them for a magnitude `x`. It is stated as
the interval of the magnitudes with this exponent and quotient, so that a positive `x` has just one such pair. -/
structure Truncates (x : ℚ) (e : ℤ) (q : ℕ) : Prop where
  lower : 2 ^ e * (1 + (q : ℚ) / 1024) ≤ x
  upper : x < 2 ^ e * (1 + ((q : ℚ) + 1) / 1024)
  quotient_lt : q < 1024

namespace Truncates

variable {x : ℚ} {e e' : ℤ} {q q' : ℕ}

theorem zpow_le (h : Truncates x e q) : 2 ^ e ≤ x := by
  have scale : (0 : ℚ) < 2 ^ e := by positivity
  calc (2 : ℚ) ^ e ≤ 2 ^ e * (1 + (q : ℚ) / 1024) :=
        le_mul_of_one_le_right scale.le (le_add_of_nonneg_right (by positivity))
    _ ≤ x := h.lower

theorem lt_zpow_succ (h : Truncates x e q) : x < 2 ^ (e + 1) := by
  have scale : (0 : ℚ) < 2 ^ e := by positivity
  have fits : (q : ℚ) + 1 ≤ 1024 := by exact_mod_cast h.quotient_lt
  calc x < 2 ^ e * (1 + ((q : ℚ) + 1) / 1024) := h.upper
    _ ≤ 2 ^ e * 2 := by gcongr; linarith
    _ = 2 ^ (e + 1) := (zpow_add_one₀ two_ne_zero e).symm

theorem pos (h : Truncates x e q) : 0 < x :=
  lt_of_lt_of_le (by positivity) h.zpow_le

/-- The exponent is the only one whose powers of two enclose the magnitude. -/
theorem exponent_eq (h : Truncates x e q) (lower : 2 ^ e' ≤ x) (upper : x < 2 ^ (e' + 1)) : e = e' := by
  have below : e < e' + 1 := (zpow_lt_zpow_iff_right₀ one_lt_two).1 (h.zpow_le.trans_lt upper)
  have above : e' < e + 1 := (zpow_lt_zpow_iff_right₀ one_lt_two).1 (lower.trans_lt h.lt_zpow_succ)
  omega

theorem quotient_le (h : Truncates x e q) (h' : Truncates x e q') : q ≤ q' := by
  have scaled := h.lower.trans_lt h'.upper
  have bounds : 1 + (q : ℚ) / 1024 < 1 + ((q' : ℚ) + 1) / 1024 := lt_of_mul_lt_mul_left scaled (by positivity)
  have : (q : ℚ) < q' + 1 := by linarith
  exact Nat.lt_succ_iff.1 (by exact_mod_cast this)

theorem unique (h : Truncates x e q) (h' : Truncates x e' q') : e = e' ∧ q = q' := by
  obtain rfl := h.exponent_eq h'.zpow_le h'.lt_zpow_succ
  exact ⟨rfl, (h.quotient_le h').antisymm (h'.quotient_le h)⟩

/-- Scaling by a power of two moves the exponent alone. -/
theorem mul_zpow (h : Truncates x e q) (n : ℤ) : Truncates (x * 2 ^ n) (e + n) q := by
  have scale : (0 : ℚ) < 2 ^ n := by positivity
  refine ⟨?_, ?_, h.quotient_lt⟩ <;> rw [zpow_add₀ two_ne_zero, mul_right_comm]
  · exact mul_le_mul_of_nonneg_right h.lower scale.le
  · exact mul_lt_mul_of_pos_right h.upper scale

/-- R54's words for the quotient. -/
theorem quotient_bounds (h : Truncates x e q) :
    (q : ℚ) ≤ 1024 * (x / 2 ^ e - 1) ∧ 1024 * (x / 2 ^ e - 1) < (q : ℚ) + 1 := by
  have scale : (0 : ℚ) < 2 ^ e := by positivity
  have lower : 1 + (q : ℚ) / 1024 ≤ x / 2 ^ e := (le_div_iff₀' scale).2 h.lower
  have upper : x / 2 ^ e < 1 + ((q : ℚ) + 1) / 1024 := (div_lt_iff₀' scale).2 h.upper
  constructor <;> linarith

/-- Of `u` units of `2^n`, with top bit `k`, the exponent is `k + n` and the quotient a whole-number division. -/
theorem of_nat_mul_zpow {u k : ℕ} (lower : 2 ^ k ≤ u) (upper : u < 2 ^ (k + 1)) (n : ℤ) :
    Truncates ((u : ℚ) * 2 ^ n) (k + n) (1024 * u / 2 ^ k - 1024) := by
  have leading : 1024 ≤ 1024 * u / 2 ^ k := (Nat.le_div_iff_mul_le (by positivity)).2 (by omega)
  have carry : 1024 * u / 2 ^ k < 2048 := (Nat.div_lt_iff_lt_mul (by positivity)).2 (by rw [pow_succ] at upper; omega)
  have whole : Truncates (u : ℚ) k (1024 * u / 2 ^ k - 1024) := by
    have below : ((1024 * u / 2 ^ k : ℕ) : ℚ) * 2 ^ k ≤ 1024 * u := by
      exact_mod_cast Nat.div_mul_le_self (1024 * u) (2 ^ k)
    have above : (1024 * u : ℚ) < ((1024 * u / 2 ^ k : ℕ) + 1) * 2 ^ k := by
      exact_mod_cast Nat.lt_mul_of_div_lt (Nat.lt_succ_self (1024 * u / 2 ^ k)) (by positivity)
    refine ⟨?_, ?_, by omega⟩ <;> rw [Nat.cast_sub leading, zpow_natCast] <;> push_cast <;> linarith
  exact whole.mul_zpow n

end Truncates

/-- A magnitude with a fraction of ten bits is its own truncation. -/
theorem truncates_self (e : ℤ) {q : ℕ} (fits : q < 1024) : Truncates (2 ^ e * (1 + (q : ℚ) / 1024)) e q := by
  refine ⟨le_rfl, ?_, fits⟩
  gcongr
  linarith

/-- The exponent and the quotient of a nonzero word of `u` units, `2^k ≤ u < 2^(k+1)`. -/
theorem truncates_units {w : U32} {k : ℕ} (lower : 2 ^ k ≤ f32Units w) (upper : f32Units w < 2 ^ (k + 1)) :
    Truncates |f32Value w| (k - 149) (1024 * f32Units w / 2 ^ k - 1024) := by
  rw [abs_f32Value_eq_units]
  exact Truncates.of_nat_mul_zpow lower upper (-149)

theorem truncates_log2_units {w : U32} (nonzero : f32Units w ≠ 0) :
    Truncates |f32Value w| (Nat.log2 (f32Units w) - 149)
      (1024 * f32Units w / 2 ^ Nat.log2 (f32Units w) - 1024) := by
  obtain ⟨lower, upper⟩ := (Nat.log2_eq_iff nonzero).1 rfl
  exact truncates_units lower upper

theorem exists_truncates {w : U32} (nonzero : f32Value w ≠ 0) : ∃ e q, Truncates |f32Value w| e q :=
  ⟨_, _, truncates_log2_units fun zero => nonzero ((f32Value_eq_zero_iff w).2 zero)⟩

theorem f16Encode_of_zero {w : U32} (zero : f32Value w = 0) : f16Encode w = 0#16 :=
  if_pos ((f32Value_eq_zero_iff w).1 zero)

theorem ofNat_emod_32 (i : ℤ) : BitVec.ofNat 5 (i % 32).toNat = BitVec.ofInt 5 i := by
  apply BitVec.eq_of_toNat_eq
  rw [BitVec.toNat_ofInt, BitVec.toNat_ofNat]
  omega

/-- R54: a nonzero word encodes to its sign, the exponent plus 15 on 5 bits, and the truncated fraction. -/
theorem f16Encode_of_truncates {w : U32} {e : ℤ} {q : ℕ} (h : Truncates |f32Value w| e q) :
    f16Encode w = f16Pack (f32Sign w) (BitVec.ofInt 5 (e + 15)) (BitVec.ofNat 10 q) := by
  have nonzero : f32Units w ≠ 0 := fun zero => h.pos.ne' (abs_eq_zero.2 ((f32Value_eq_zero_iff w).2 zero))
  obtain ⟨exponent, quotient⟩ := h.unique (truncates_log2_units nonzero)
  unfold f16Encode
  simp only [if_neg nonzero, ofNat_emod_32, exponent, quotient]

theorem f16Encode_toNat {w : U32} {e : ℤ} {q : ℕ} (h : Truncates |f32Value w| e q) :
    (f16Encode w).toNat = (f32Sign w).toNat * 2 ^ 15 + ((e + 15) % 32).toNat * 2 ^ 10 + q := by
  rw [f16Encode_of_truncates h, f16Pack_toNat, BitVec.toNat_ofInt, BitVec.toNat_ofNat,
    Nat.mod_eq_of_lt (by simpa using h.quotient_lt)]
  rfl

theorem f32Value_neg_iff {w : U32} (nonzero : f32Value w ≠ 0) : f32Value w < 0 ↔ f32Sign w = 1#1 := by
  rw [f32Value_eq_signOf_mul_abs]
  rcases BitVec.eq_zero_or_eq_one (f32Sign w) with sign | sign <;> rw [sign]
  · simp [signOf_zero]
  · simpa [signOf_one] using nonzero

theorem toNat_f32Sign {w : U32} (nonzero : f32Value w ≠ 0) :
    (f32Sign w).toNat = if f32Value w < 0 then 1 else 0 := by
  simp only [f32Value_neg_iff nonzero]
  rcases BitVec.eq_zero_or_eq_one (f32Sign w) with sign | sign <;> rw [sign] <;> rfl

end Sys2Proof.Machine
end

section
/-! PROOFS. `F16ENC` on exact values, bit by bit, and its wrap and collisions (40_f16_codec.md R54 to R58). -/

namespace Sys2Proof.Machine

open Sys2Proof.Safety

/-- Settles O22: the branch of `execF16enc_eq` for an infinity or a NaN. The counter of draws is assumptions 10 and 11. -/
theorem f16encOfNonFiniteIsADraw : Obligations.F16encOfNonFiniteIsADraw := by
  intro val s nonFinite
  have isNonFinite : f32NonFinite val = true := by rw [f32NonFinite, nonFinite]; rfl
  rw [exec, execF16enc_eq, if_pos isNonFinite]
  rfl

/-- Settles O21: the exponent and the quotient are those of `exists_truncates`; of an infinity or a NaN the word is a draw
(assumptions 10 and 11). -/
theorem f16encTruncatesExactly : Obligations.F16encTruncatesExactly := by
  refine ⟨fun _ => rfl, fun val s => ⟨fun nonFinite => ⟨_, _, f16encOfNonFiniteIsADraw val s nonFinite⟩, fun finite =>
    ⟨f16Encode val, exec_f16enc_of_finite finite s, f16Encode_of_zero, fun nonzero => ?_⟩⟩⟩
  obtain ⟨e, q, h⟩ := exists_truncates nonzero
  obtain ⟨quotientLower, quotientUpper⟩ := h.quotient_bounds
  refine ⟨e, q, h.zpow_le, h.lt_zpow_succ, quotientLower, quotientUpper, ?_⟩
  rw [f16Encode_toNat h, toNat_f32Sign nonzero]

/-- The exponent of a normal word is its field less the bias, the quotient the upper ten bits of its fraction (R56). -/
theorem truncates_of_normal {w : U32} (normal : f32Exp w ≠ 0#8) :
    Truncates |f32Value w| ((f32Exp w).toNat - 127) ((f32Frac w).toNat / 2 ^ 13) := by
  have fits := (f32Frac w).isLt
  have lower : (((f32Frac w).toNat / 2 ^ 13 : ℕ) : ℚ) * 2 ^ 13 ≤ (f32Frac w).toNat := by
    exact_mod_cast Nat.div_mul_le_self _ _
  have upper : ((f32Frac w).toNat : ℚ) < (((f32Frac w).toNat / 2 ^ 13 : ℕ) + 1) * 2 ^ 13 := by
    exact_mod_cast Nat.lt_mul_of_div_lt (Nat.lt_succ_self _) (by positivity)
  rw [abs_f32Value_of_normal normal]
  exact ⟨mul_le_mul_of_nonneg_left (by linarith) (by positivity), mul_lt_mul_of_pos_left (by linarith) (by positivity),
    by omega⟩

/-- The quotient of a subnormal word with top bit `k`: the rest of the fraction shifted to ten bits (R56). -/
theorem quotient_eq_shift {F k : ℕ} (lower : 2 ^ k ≤ F) :
    1024 * F / 2 ^ k - 1024 = if 10 ≤ k then (F - 2 ^ k) / 2 ^ (k - 10) else (F - 2 ^ k) * 2 ^ (10 - k) := by
  obtain ⟨r, rfl⟩ := Nat.exists_eq_add_of_le lower
  have leading : 1024 * (2 ^ k + r) / 2 ^ k = 1024 + 1024 * r / 2 ^ k := by
    rw [mul_add, mul_comm, Nat.mul_add_div (by positivity)]
  rw [leading, Nat.add_sub_cancel_left, Nat.add_sub_cancel_left]
  split_ifs with wide
  · obtain ⟨n, rfl⟩ := Nat.exists_eq_add_of_le wide
    rw [pow_add, Nat.add_sub_cancel_left]
    exact Nat.mul_div_mul_left r (2 ^ n) (by norm_num)
  · have scale : 1024 = 2 ^ k * 2 ^ (10 - k) := by
      rw [← pow_add, Nat.add_sub_cancel' (by omega)]
      rfl
    rw [scale, mul_assoc, Nat.mul_div_cancel_left _ (by positivity), mul_comm]

/-- Settles O23: `truncates_of_normal` and, for a subnormal word with top bit `k`, `truncates_units`. -/
theorem f16encBitLevelForm : Obligations.F16encBitLevelForm := by
  intro val s finite
  refine ⟨f16Encode val, exec_f16enc_of_finite finite s, fun exponent fraction => ?_, fun normal => ?_,
    fun k subnormal lower upper => ?_⟩
  · apply f16Encode_of_zero
    rw [f32Value_eq_zero_iff, f32Units_of_subnormal exponent, fraction]
    rfl
  · have exponentNonzero : f32Exp val ≠ 0#8 := fun zero => by simp [zero] at normal
    rw [f16Encode_toNat (truncates_of_normal exponentNonzero)]
    omega
  · rw [← f32Units_of_subnormal subnormal] at lower upper ⊢
    rw [f16Encode_toNat (truncates_units lower upper), quotient_eq_shift lower]
    omega

/-- Settles O24: scaling by `2^(32 j)` keeps the sign and the quotient and moves the exponent by a multiple of 32. -/
theorem f16encWrapsTheExponent : Obligations.F16encWrapsTheExponent := by
  intro v w j s finiteV finiteW nonzero scaled
  have scale : (0 : ℚ) < 2 ^ (32 * j) := by positivity
  have sign : f32Sign w = f32Sign v := by
    have nonzeroW : f32Value w ≠ 0 := scaled ▸ mul_ne_zero nonzero scale.ne'
    refine signOf_injective (mul_right_cancel₀ nonzeroW ?_)
    rw [← abs_f32Value_eq_signOf_mul, scaled, abs_mul, abs_of_pos scale, abs_f32Value_eq_signOf_mul v, mul_assoc]
  have exponent (e : ℤ) : BitVec.ofInt 5 (e + 32 * j + 15) = BitVec.ofInt 5 (e + 15) := by
    apply BitVec.eq_of_toNat_eq
    rw [BitVec.toNat_ofInt, BitVec.toNat_ofInt]
    omega
  obtain ⟨e, q, h⟩ := exists_truncates nonzero
  have h' : Truncates |f32Value w| (e + 32 * j) q := by
    rw [scaled, abs_mul, abs_of_pos scale]
    exact h.mul_zpow (32 * j)
  rw [exec_f16enc_of_finite finiteV, exec_f16enc_of_finite finiteW, f16Encode_of_truncates h,
    f16Encode_of_truncates h', sign, exponent]

/-- A collision interval holds the magnitudes of its exponent with quotient 0. -/
theorem collisionInterval_iff_truncates (x : ℚ) (e : ℤ) :
    (2 : ℚ) ^ e ≤ x ∧ x < 2 ^ e * (1025 / 1024) ↔ Truncates x e 0 := by
  have topOfInterval : (1 : ℚ) + (((0 : ℕ) : ℚ) + 1) / 1024 = 1025 / 1024 := by norm_num
  constructor
  · rintro ⟨lower, upper⟩
    exact ⟨by simpa using lower, by rwa [topOfInterval], by norm_num⟩
  · intro h
    exact ⟨h.zpow_le, topOfInterval ▸ h.upper⟩

theorem zeroCollision_iff_truncates (x : ℚ) : ZeroCollision x ↔ ∃ j : ℤ, Truncates x (-15 + 32 * j) 0 :=
  exists_congr fun j => collisionInterval_iff_truncates x (-15 + 32 * j)

/-- R58: a word with zero exponent field and zero fraction comes from a collision interval on the side of its sign. -/
theorem f16Encode_eq_f16Pack_zero_iff {w : U32} (nonzero : f32Value w ≠ 0) (s : BitVec 1) :
    f16Encode w = f16Pack s 0#5 0#10 ↔ ZeroCollision (signOf s * f32Value w) := by
  rw [zeroCollision_iff_truncates]
  constructor
  · intro encoded
    obtain ⟨e, q, h⟩ := exists_truncates nonzero
    rw [f16Encode_of_truncates h, f16Pack_inj] at encoded
    obtain ⟨rfl, exponent, quotient⟩ := encoded
    have zeroExponent : (e + 15) % 32 = 0 := by
      have := congrArg BitVec.toNat exponent
      rw [BitVec.toNat_ofInt, BitVec.toNat_ofNat] at this
      omega
    have zeroQuotient : q = 0 := by
      have := congrArg BitVec.toNat quotient
      rw [BitVec.toNat_ofNat, Nat.mod_eq_of_lt h.quotient_lt] at this
      exact this
    refine ⟨(e + 15) / 32, ?_⟩
    rw [← abs_f32Value_eq_signOf_mul, ← zeroQuotient, show -15 + 32 * ((e + 15) / 32) = e by omega]
    exact h
  · rintro ⟨j, h⟩
    have magnitude : signOf s * f32Value w = |f32Value w| := by
      rw [← abs_of_pos h.pos, abs_mul, abs_signOf, one_mul]
    have sign : f32Sign w = s :=
      signOf_injective (mul_right_cancel₀ nonzero (by rw [← abs_f32Value_eq_signOf_mul, magnitude]))
    have exponent : BitVec.ofInt 5 (-15 + 32 * j + 15) = 0#5 := by
      apply BitVec.eq_of_toNat_eq
      rw [BitVec.toNat_ofInt, BitVec.toNat_ofNat]
      omega
    rw [magnitude] at h
    rw [f16Encode_of_truncates h, sign, exponent]

theorem not_zeroCollision_zero : ¬ ZeroCollision 0 := by
  rintro ⟨j, lower, -⟩
  exact absurd lower (not_le.2 (by positivity))

/-- R58: `F16ENC` gives 0x0000 for zero and the positive collision intervals. -/
theorem f16Encode_eq_zero_iff (w : U32) :
    f16Encode w = 0#16 ↔ f32Value w = 0 ∨ ZeroCollision (f32Value w) := by
  by_cases zero : f32Value w = 0
  · simp [zero, f16Encode_of_zero]
  · have packed := f16Encode_eq_f16Pack_zero_iff zero 0#1
    rw [signOf_zero, one_mul] at packed
    rw [or_iff_right zero]
    exact packed

/-- R58: `F16ENC` gives 0x8000 for the negative collision intervals. -/
theorem f16Encode_eq_signBit_iff (w : U32) : f16Encode w = 0x8000#16 ↔ ZeroCollision (-f32Value w) := by
  by_cases zero : f32Value w = 0
  · simp [zero, f16Encode_of_zero, not_zeroCollision_zero]
  · have packed := f16Encode_eq_f16Pack_zero_iff zero 1#1
    rw [signOf_one, neg_one_mul] at packed
    exact packed

theorem exec_f16enc_eq_iff {val : U32} (finite : F32Finite val) (s : State) (b : U16) :
    exec (.f16enc val) s = .next { s with resp := some ⟨.ok, .bits b⟩ } ↔ f16Encode val = b := by
  rw [exec_f16enc_of_finite finite]
  simp [answer, respond]

/-- Settles O25: the two words are those with zero exponent field and zero fraction, one of each sign, and they decode by
evaluation. -/
theorem f16ZeroCollisionIsOneSided : Obligations.F16ZeroCollisionIsOneSided := by
  intro val s finite
  rw [exec_f16enc_eq_iff finite, exec_f16enc_eq_iff finite]
  exact ⟨f16Encode_eq_zero_iff val, f16Encode_eq_signBit_iff val, rfl, rfl⟩

end Sys2Proof.Machine
end

section
/-! PROOFS. The two round trips of the half-precision codec (40_f16_codec.md R59). -/

namespace Sys2Proof.Machine

open Sys2Proof.Safety

theorem f16Encode_f16Decode (b : U16) : f16Encode (f16Decode b) = b := by
  by_cases zero : b = 0#16
  · rw [zero]
    exact f16Encode_of_zero ((f32Value_eq_zero_iff _).2 rfl)
  · obtain ⟨s, e, q, rfl⟩ := exists_eq_f16Pack b
    have h : Truncates |f32Value (f16Decode (f16Pack s e q))| (e.toNat - 15) q.toNat := by
      rw [f32Value_f16Decode_f16Pack zero, abs_mul, abs_signOf, one_mul, abs_of_nonneg (by positivity)]
      exact truncates_self _ q.isLt
    have sign : f32Sign (f16Decode (f16Pack s e q)) = s := by
      rw [f16Decode_f16Pack zero, f32Sign_append]
    rw [f16Encode_of_truncates h, sign, sub_add_cancel, BitVec.ofInt_natCast, BitVec.ofNat_toNat, BitVec.ofNat_toNat,
      BitVec.setWidth_eq, BitVec.setWidth_eq]

/-- Settles O26: a decoded word is finite, and `F16ENC` finds the fields it was joined of. -/
theorem f16DecodeThenEncodeIsIdentity : Obligations.F16DecodeThenEncodeIsIdentity := fun b s =>
  ⟨f16Decode b, rfl, (exec_f16enc_eq_iff (f32Finite_f16Decode b) s b).2 (f16Encode_f16Decode b)⟩

/-- A word that does not encode to 0x0000 comes back with its sign and its ten upper bits; its exponent comes back into
-15 to 16 (R57, R59). -/
theorem f32Value_f16Decode_f16Encode {w : U32} {e : ℤ} {q : ℕ} (h : Truncates |f32Value w| e q)
    (nonzero : f16Encode w ≠ 0#16) :
    f32Value (f16Decode (f16Encode w)) =
      signOf (f32Sign w) * (2 ^ ((e + 15) % 32 - 15) * (1 + (q : ℚ) / 1024)) := by
  have exponent : ((BitVec.ofInt 5 (e + 15)).toNat : ℤ) = (e + 15) % 32 := by
    rw [BitVec.toNat_ofInt]
    omega
  have quotient : (BitVec.ofNat 10 q).toNat = q := by
    rw [BitVec.toNat_ofNat, Nat.mod_eq_of_lt h.quotient_lt]
  rw [f16Encode_of_truncates h] at nonzero ⊢
  rw [f32Value_f16Decode_f16Pack nonzero, exponent, quotient]

/-- In range and outside the collision interval of exponent -15, no word encodes to 0x0000. -/
theorem f16Encode_ne_zero_of_inRange {w : U32} {e : ℤ} {q : ℕ} (h : Truncates |f32Value w| e q) (lower : -15 ≤ e)
    (upper : e ≤ 16)
    (outside : ¬ ((2 : ℚ) ^ (-15 : ℤ) ≤ f32Value w ∧ f32Value w < 2 ^ (-15 : ℤ) * (1025 / 1024))) :
    f16Encode w ≠ 0#16 := by
  rw [collisionInterval_iff_truncates] at outside
  intro encodedZero
  rcases (f16Encode_eq_zero_iff w).1 encodedZero with zero | collision
  · exact h.pos.ne' (abs_eq_zero.2 zero)
  · obtain ⟨j, hj⟩ := (zeroCollision_iff_truncates _).1 collision
    rw [abs_of_pos hj.pos] at h
    obtain ⟨exponent, -⟩ := h.unique hj
    obtain rfl : j = 0 := by omega
    exact outside hj

/-- In range, the round trip of a word that does not encode to 0x0000 keeps the exponent. -/
theorem f32Value_roundTrip_of_inRange {w : U32} {e : ℤ} {q : ℕ} (h : Truncates |f32Value w| e q) (lower : -15 ≤ e)
    (upper : e ≤ 16) (nonzero : f16Encode w ≠ 0#16) :
    f32Value (f16Decode (f16Encode w)) = signOf (f32Sign w) * (2 ^ e * (1 + (q : ℚ) / 1024)) := by
  rw [f32Value_f16Decode_f16Encode h nonzero, show (e + 15) % 32 - 15 = e by omega]

/-- Settles O27: the result has the sign of `v` and the least magnitude with the exponent and the quotient of `|v|`. -/
theorem f16RoundTripTruncatesWithinOneStep : Obligations.F16RoundTripTruncatesWithinOneStep := by
  intro v e s finite lower upper inRangeLower inRangeUpper outside
  have scale : (0 : ℚ) < 2 ^ e := by positivity
  obtain ⟨e', q, h⟩ := exists_truncates (abs_pos.1 (scale.trans_le lower))
  obtain rfl := h.exponent_eq lower upper
  have result := f32Value_roundTrip_of_inRange h inRangeLower inRangeUpper
    (f16Encode_ne_zero_of_inRange h inRangeLower inRangeUpper outside)
  have truncated := truncates_self e' h.quotient_lt
  have magnitude : |f32Value (f16Decode (f16Encode v))| = 2 ^ e' * (1 + (q : ℚ) / 1024) := by
    rw [result, abs_mul, abs_signOf, one_mul, abs_of_pos truncated.pos]
  refine ⟨f16Encode v, f16Decode (f16Encode v), exec_f16enc_of_finite finite s, rfl, ?_, ?_, ?_, ?_⟩
  · rw [result, mul_pos_iff_of_pos_right truncated.pos, f32Value_eq_signOf_mul_abs v, mul_pos_iff_of_pos_right h.pos]
  · rw [magnitude]
    exact truncated.zpow_le
  · rw [magnitude]
    exact h.lower
  · rw [magnitude]
    linarith [h.upper]

theorem exponent_lt_of_subnormal {w : U32} {e : ℤ} {q : ℕ} (h : Truncates |f32Value w| e q)
    (subnormal : f32Exp w = 0#8) : e < -126 := by
  have fits : ((f32Frac w).toNat : ℚ) < 2 ^ 23 := by exact_mod_cast (f32Frac w).isLt
  refine (zpow_lt_zpow_iff_right₀ (one_lt_two (α := ℚ))).1 ?_
  calc (2 : ℚ) ^ e ≤ |f32Value w| := h.zpow_le
    _ = (f32Frac w).toNat * 2 ^ (-149 : ℤ) := by rw [abs_f32Value_eq_units, f32Units_of_subnormal subnormal]
    _ < 2 ^ 23 * 2 ^ (-149 : ℤ) := by gcongr
    _ = 2 ^ (-126 : ℤ) := by norm_num

/-- A normal magnitude is its truncation just when the thirteen bits that the truncation drops are zero. -/
theorem truncated_eq_iff_of_normal {w : U32} (normal : f32Exp w ≠ 0#8) :
    2 ^ (((f32Exp w).toNat : ℤ) - 127) * (1 + (((f32Frac w).toNat / 2 ^ 13 : ℕ) : ℚ) / 1024) = |f32Value w| ↔
      (f32Frac w).extractLsb' 0 13 = 0#13 := by
  have dropped : (f32Frac w).extractLsb' 0 13 = 0#13 ↔ (f32Frac w).toNat / 2 ^ 13 * 2 ^ 13 = (f32Frac w).toNat := by
    rw [← BitVec.toNat_inj, BitVec.extractLsb'_toNat, Nat.shiftRight_zero, BitVec.toNat_ofNat]
    omega
  rw [abs_f32Value_of_normal normal, mul_right_inj' (by positivity), add_right_inj, dropped, ← Nat.cast_inj (R := ℚ),
    Nat.cast_mul]
  push_cast
  constructor <;> intro equal <;> linarith

/-- An exact round trip of a nonzero word loses neither the exponent nor a bit of the fraction. -/
theorem fields_of_roundTrip_exact {w : U32} (nonzero : f32Value w ≠ 0)
    (unchanged : f32Value (f16Decode (f16Encode w)) = f32Value w) :
    f16Encode w ≠ 0#16 ∧ (f32Frac w).extractLsb' 0 13 = 0#13 ∧ 112 ≤ (f32Exp w).toNat ∧ (f32Exp w).toNat ≤ 143 := by
  have encodedNonzero : f16Encode w ≠ 0#16 := by
    intro encodedZero
    rw [encodedZero, f32Value_f16Decode] at unchanged
    exact nonzero unchanged.symm
  obtain ⟨e, q, h⟩ := exists_truncates nonzero
  have wrapped := truncates_self ((e + 15) % 32 - 15) h.quotient_lt
  have magnitude : 2 ^ ((e + 15) % 32 - 15) * (1 + (q : ℚ) / 1024) = |f32Value w| := by
    rw [← unchanged, f32Value_f16Decode_f16Encode h encodedNonzero, abs_mul, abs_signOf, one_mul, abs_of_pos wrapped.pos]
  rw [magnitude] at wrapped
  obtain ⟨inRange, -⟩ := h.unique wrapped
  have normal : f32Exp w ≠ 0#8 := by
    intro subnormal
    have := exponent_lt_of_subnormal h subnormal
    omega
  obtain ⟨exponent, quotient⟩ := h.unique (truncates_of_normal normal)
  rw [← inRange, exponent, quotient] at magnitude
  exact ⟨encodedNonzero, (truncated_eq_iff_of_normal normal).1 magnitude, by omega, by omega⟩

/-- Settles O28: an exact round trip has the fields of `fields_of_roundTrip_exact`; with these fields the round trip is the
truncation, which drops nothing. -/
theorem f16RoundTripExactness : Obligations.F16RoundTripExactness := by
  intro v s finite
  refine ⟨f16Encode v, f16Decode (f16Encode v), exec_f16enc_of_finite finite s, rfl, ?_, ?_⟩
  · intro unchanged
    refine or_iff_not_imp_left.2 fun nonzero => ?_
    obtain ⟨encodedNonzero, dropped, lower, upper⟩ := fields_of_roundTrip_exact nonzero unchanged
    exact ⟨dropped, lower, upper, fun collision =>
      encodedNonzero ((f16Encode_eq_zero_iff v).2 (.inr ⟨0, collision⟩))⟩
  · rintro (zero | ⟨dropped, lower, upper, outside⟩)
    · rw [f16Encode_of_zero zero, f32Value_f16Decode, zero]
      rfl
    · have normal : f32Exp v ≠ 0#8 := fun subnormal => by simp [subnormal] at lower
      have h := truncates_of_normal normal
      rw [f32Value_roundTrip_of_inRange h (by omega) (by omega)
          (f16Encode_ne_zero_of_inRange h (by omega) (by omega) outside),
        (truncated_eq_iff_of_normal normal).2 dropped, ← f32Value_eq_signOf_mul_abs]

end Sys2Proof.Machine
end

section
/-! PROOFS. The CRC operations, the function `CRC16` and its streaming form (41_crc16.md R61 to R69). -/

namespace Sys2Proof.Machine

open Sys2Proof.Safety

theorem updBytes_cons (i : Instr) (ops : List Instr) : updBytes (i :: ops) = updBytes [i] ++ updBytes ops := by
  cases i <;> rfl

/-- The register after two byte sequences is the second absorbed from the register the first leaves. -/
theorem crcFold_append (p : CrcParams) (acc : U16) (xs ys : List Byte) :
    crcFold p acc (xs ++ ys) = crcFold p (crcFold p acc xs) ys :=
  List.foldl_append

/-- Every operation but `CRCINIT` completes and leaves in the accumulator what it held, stepped by the operation's bytes:
one for `CRCUPD`, none for the others (R15, R66). -/
theorem exec_absorbs_updBytes {i : Instr} (notInit : i ≠ .crcinit) (s : State) :
    ∃ t, exec i s = .next t ∧ t.crcAcc = crcFold s.params.crc s.crcAcc (updBytes [i]) := by
  cases i
  case crcinit => exact absurd rfl notInit
  case f16enc val =>
    by_cases nonFinite : f32NonFinite val = true
    · exact ⟨_, if_pos nonFinite, rfl⟩
    · exact ⟨_, if_neg nonFinite, rfl⟩
  case segsend id sig payload =>
    by_cases tooLong : payloadTooLong s.params payload.length = true
    · exact ⟨_, if_pos tooLong, rfl⟩
    · exact ⟨_, if_neg tooLong, rfl⟩
  all_goals exact ⟨_, rfl, rfl⟩

/-- A run through presented operations without `CRCINIT` absorbs their bytes in order and goes on from there. -/
theorem run_absorbs_updBytes (ops : List Instr) (rest : List HostInput) (k : ℕ) (s : State)
    (noInit : ∀ i ∈ ops, i ≠ .crcinit) (presented : s.host = ops.map commandOf ++ rest) :
    ∃ t : State, Host.Core.run core (k + ops.length) s = Host.Core.run core k t ∧ t.host = rest ∧
      t.params = s.params ∧ t.crcAcc = crcFold s.params.crc s.crcAcc (updBytes ops) := by
  induction ops generalizing s with
  | nil => exact ⟨s, rfl, presented, rfl, rfl⟩
  | cons i ops ih =>
    obtain ⟨notInit, noInit⟩ := List.forall_mem_cons.1 noInit
    obtain ⟨u, completes, absorbed⟩ := exec_absorbs_updBytes notInit { s with host := ops.map commandOf ++ rest }
    have kept : u.params = s.params ∧ u.host = ops.map commandOf ++ rest := exec_keeps_params_and_host i _ u completes
    obtain ⟨params, host⟩ := kept
    obtain ⟨t, run, host', params', absorbs⟩ := ih u noInit host
    refine ⟨t, (run_commandOf (k + ops.length) presented completes).trans run, host', params'.trans params, ?_⟩
    rw [absorbs, params, absorbed, updBytes_cons i ops, crcFold_append]

/-- Settles O33: `CRCINIT` puts the accumulator at `INIT`, `run_absorbs_updBytes` carries it to the fold of the bytes, and
`CRCRD` reads it through `CRC_FIN`. -/
theorem streamingChecksumEqualsTheFunction : Obligations.StreamingChecksumEqualsTheFunction := by
  intro s ops rest noInit presented
  have initialises := run_commandOf (1 + ops.length) presented rfl
  obtain ⟨t, absorbs, host, params, acc⟩ :=
    run_absorbs_updBytes ops (commandOf .crcrd :: rest) 1
      (answer .empty (setCrcAcc s.params.crc.init { s with host := ops.map commandOf ++ commandOf .crcrd :: rest }))
      noInit rfl
  have reads := run_commandOf 0 host rfl
  have completes := initialises.trans (absorbs.trans reads)
  have checksum : crcFin t.params.crc t.crcAcc = crc16 s.params.crc (updBytes ops) := by
    rw [params, acc]
    rfl
  rw [Nat.add_comm 1 ops.length] at completes
  exact ⟨_, completes, rfl, congrArg (fun c => some (Response.mk .ok (.crc c))) checksum⟩

/-- Settles O29: the row of the decoder's table, and the two fields that `CRCINIT` writes. -/
theorem crcinitLoadsTheInitialValue : Obligations.CrcinitLoadsTheInitialValue :=
  ⟨fun _ => rfl, fun _ => rfl⟩

/-- R69's test of bit 15 by a mask is the test of the most significant bit. -/
theorem and_bit15_ne_zero_iff (a : U16) : a &&& 0x8000#16 ≠ 0#16 ↔ a.msb = true := by
  have mask : a &&& 0x8000#16 = if a.getLsbD 15 then 0x8000#16 else 0#16 := BitVec.and_twoPow a 15
  rw [mask, BitVec.msb_eq_getLsbD_last]
  cases a.getLsbD 15 <;> simp

theorem crcShift_eq_msb (p : CrcParams) :
    crcShift p = fun a : U16 => if a.msb then (a <<< 1) ^^^ p.poly else a <<< 1 := by
  funext a
  rw [crcShift, if_congr (and_bit15_ne_zero_iff a) rfl rfl]

theorem crcShifts_eq_iterate (p : CrcParams) (n : ℕ) (a : U16) : crcShifts p n a = (crcShift p)^[n] a := by
  induction n generalizing a with
  | zero => rfl
  | succ n ih => exact ih (crcShift p a)

/-- Settles O30: the eight turns of the loop are the eighth iterate of the turn, which tests the most significant bit. -/
theorem crcupdAbsorbsOneByte : Obligations.CrcupdAbsorbsOneByte := by
  refine ⟨fun _ => rfl, fun b s => ?_⟩
  rw [← crcShift_eq_msb, ← crcShifts_eq_iterate]
  rfl

/-- Settles O31: the row of the decoder's table, and the response with `CRC_FIN` of the register written out. -/
theorem crcrdReadsWithoutChanging : Obligations.CrcrdReadsWithoutChanging :=
  ⟨fun _ => rfl, fun _ => rfl⟩

/-- Settles O32: `crcFold_append` splits the loop after the signature; the other parts are the definitions of R62. -/
theorem crc16IsAFoldOfTheStep : Obligations.Crc16IsAFoldOfTheStep := fun p =>
  ⟨rfl, fun _ => rfl, fun _ => rfl, fun sig payload =>
    congrArg (crcFin p) (crcFold_append p p.init sig.toList payload)⟩

/-- Settles O35: closed computations that the kernel runs, under the default parameters alone, which assumption 7
presumes. -/
theorem checksumsUnderTheDefaultParameters : Obligations.ChecksumsUnderTheDefaultParameters := by
  unfold Obligations.ChecksumsUnderTheDefaultParameters
  decide +kernel

end Sys2Proof.Machine
end

section
/-! PROOFS. `SEGSEND`: what it answers, how its frames cut up the checksum and the payload, and what it does not look at
(42_segmentation.md R70 to R78). -/

namespace Sys2Proof.Machine

open Sys2Proof.Safety

/-! ## Completed or refused -/

/-- A send beyond `PAYLOAD_MAX` is refused and changes nothing but the response (R78, R93). -/
theorem exec_segsend_of_lt {s : State} {payload : List Byte} {m : ℕ} (finite : s.params.payloadMax = some m)
    (longer : m < payload.length) (id : Ident) (sig : Signature) :
    exec (.segsend id sig payload) s = .next { s with resp := some ⟨.tooLong, .empty⟩ } := by
  rw [exec, execSegsend_eq, if_pos ((payloadTooLong_iff _ _).2 ⟨m, finite, longer⟩)]
  rfl

theorem admits_of_infinite {p : Params} (infinite : p.payloadMax = none) (L : ℕ) : Admits p L := by
  intro m finite
  cases infinite.symm.trans finite

theorem admits_or_lt (p : Params) (L : ℕ) : Admits p L ∨ ∃ m, p.payloadMax = some m ∧ m < L := by
  by_cases tooLong : ∃ m, p.payloadMax = some m ∧ m < L
  · exact .inr tooLong
  · exact .inl fun m finite => not_lt.1 fun longer => tooLong ⟨m, finite, longer⟩

/-- Settles O51: the two cases of `PAYLOAD_MAX` that the response turns on. -/
theorem tooLongPayloadIsRefused : Obligations.TooLongPayloadIsRefused :=
  ⟨fun id sig _ _ _ finite longer => exec_segsend_of_lt finite longer id sig,
    fun id sig payload _ infinite =>
      ⟨_, _, exec_segsend_of_admits (admits_of_infinite infinite payload.length) id sig, rfl⟩⟩

theorem counter_segFrames {p : CrcParams} {id : Ident} {sig : Signature} {payload : List Byte} {t : BitVec 5}
    {i : ℕ} {f : Frame} (frame : (segFrames p id sig payload t)[i]? = some f) : counter f = t := by
  rw [counter, control_segFrames frame, controlByte_counter]

theorem toNat_seqCtr_succ (t : BitVec 5) : (t + 1#5).toNat = (t.toNat + 1) % 32 :=
  BitVec.toNat_add t 1#5

/-- Settles O50: a send within `PAYLOAD_MAX` emits the frames of `segFrames` at the old counter, any other is refused. -/
theorem oneCounterValuePerSend : Obligations.OneCounterValuePerSend := by
  intro id sig payload s
  rcases admits_or_lt s.params payload.length with admits | ⟨m, finite, longer⟩
  · refine ⟨_, _, exec_segsend_of_admits admits id sig, rfl, .inl ⟨_, rfl, segFrames_ne_nil _ _ _ _ _, ?_, ?_⟩⟩
    · intro f emitted
      obtain ⟨i, frame⟩ := List.mem_iff_getElem?.1 emitted
      exact counter_segFrames frame
    · exact toNat_seqCtr_succ s.seqCtr
  · exact ⟨_, _, exec_segsend_of_lt finite longer id sig, rfl, .inr ⟨rfl, rfl⟩⟩

/-! ## The shape of the frames -/

theorem body_append (id : Ident) (bytes : List Byte) (c : Byte) : body ⟨id, bytes ++ [c]⟩ = bytes :=
  List.dropLast_concat

/-- Every frame of a send is its identifier, the bytes it carries, and its control byte last (R34, R36 to R38). -/
theorem eq_body_append_control {p : CrcParams} {id : Ident} {sig : Signature} {payload : List Byte} {t : BitVec 5}
    {i : ℕ} {f : Frame} (frame : (segFrames p id sig payload t)[i]? = some f) :
    f = ⟨id, body f ++ [Safety.control f]⟩ := by
  rcases segFrames_getElem?_cases frame with ⟨-, -, only⟩ | ⟨-, -, rfl⟩ | ⟨-, -, rfl⟩
  · rw [List.mem_singleton.1 only, body_append, control_append]
  · rw [segFirst, body_append, control_append]
  · rw [segNext, body_append, control_append]

theorem length_data_segFrames {p : CrcParams} {id : Ident} {sig : Signature} {payload : List Byte} {t : BitVec 5}
    {i : ℕ} {f : Frame} (frame : (segFrames p id sig payload t)[i]? = some f) :
    f.data.length = (body f).length + 1 := by
  rw [congrArg Frame.data (eq_body_append_control frame), List.length_append, List.length_singleton]

/-- A slice cut off at the end of the payload is what is left of the payload, up to the width of the slice (R38). -/
theorem slice_min (bytes : List Byte) (a k : ℕ) :
    slice bytes a (min bytes.length (a + k)) = (bytes.drop a).take k := by
  rw [slice, List.take_eq_take_iff, List.length_drop]
  omega

/-- The control byte of the one frame of a short send (R71). -/
theorem controlByte_single (t : BitVec 5) : controlByte true true false t = 0xC0#8 ||| t.setWidth 8 := rfl

theorem segFrames_of_short {payload : List Byte} (short : payload.length ≤ 7) (p : CrcParams) (id : Ident)
    (sig : Signature) (t : BitVec 5) :
    segFrames p id sig payload t = [⟨id, payload ++ [0xC0#8 ||| t.setWidth 8]⟩] := by
  rw [segFrames, if_pos short, segSingle, controlByte_single]

theorem length_segFrames_of_long {payload : List Byte} (long : 8 ≤ payload.length) (p : CrcParams) (id : Ident)
    (sig : Signature) (t : BitVec 5) : (segFrames p id sig payload t).length = segCount payload.length := by
  rw [segFrames, if_neg (by omega), segMulti_length p id sig payload t long]

/-- What the frames of a long send carry, in order: the checksum, low byte first, and the payload (R72, R77). -/
def carried (p : CrcParams) (sig : Signature) (payload : List Byte) : List Byte :=
  (crc16 p (sig.toList ++ payload)).extractLsb' 0 8 :: (crc16 p (sig.toList ++ payload)).extractLsb' 8 8 :: payload

@[simp] theorem length_carried (p : CrcParams) (sig : Signature) (payload : List Byte) :
    (carried p sig payload).length = payload.length + 2 := rfl

/-- Frame `i` of a long send carries the `i`-th seven of the carried bytes. -/
theorem body_segFrames_of_long {p : CrcParams} {id : Ident} {sig : Signature} {payload : List Byte} {t : BitVec 5}
    {i : ℕ} {f : Frame} (long : 8 ≤ payload.length) (frame : (segFrames p id sig payload t)[i]? = some f) :
    body f = ((carried p sig payload).drop (7 * i)).take 7 := by
  have count := length_segFrames_of_long long p id sig t
  have bounds := segCount_bounds payload.length
  rcases segFrames_getElem?_cases frame with ⟨one, -, -⟩ | ⟨-, rfl, rfl⟩ | ⟨later, -, rfl⟩
  · omega
  · rw [segFirst, body_append]
    rfl
  · have start : 7 * i = (5 + 7 * (i - 1)) + 2 := by omega
    rw [segNext, body_append, slice_min, start]
    rfl

theorem length_body_segFrames_of_long {p : CrcParams} {id : Ident} {sig : Signature} {payload : List Byte}
    {t : BitVec 5} {i : ℕ} {f : Frame} (long : 8 ≤ payload.length)
    (frame : (segFrames p id sig payload t)[i]? = some f) : (body f).length = min 7 (payload.length + 2 - 7 * i) := by
  rw [body_segFrames_of_long long frame, List.length_take, List.length_drop, length_carried]

/-- Settles O46: `length_body_segFrames_of_long` at an index below the number of frames, which is the least `n` with
`7n ≥ L + 2`. -/
theorem segmentSlicesAreInRange : Obligations.SegmentSlicesAreInRange := by
  intro id sig payload s t fs i f long completes returned later frame
  obtain rfl := frames_of_exec_segsend completes returned
  obtain ⟨inRange, -⟩ := List.getElem?_eq_some_iff.1 frame
  have bounds := segCount_bounds payload.length
  rw [length_body_segFrames_of_long long frame]
  rw [length_segFrames_of_long long] at inRange ⊢
  omega

/-! ## The layout, frame by frame -/

/-- Settles O44: `segFrames_of_short` in the next state of a completed send. -/
theorem shortSendIsOneFrame : Obligations.ShortSendIsOneFrame := by
  intro id sig payload s short admits
  refine ⟨_, s.seqCtr + 1#5, rfl, List.length_append, toNat_seqCtr_succ s.seqCtr, ?_⟩
  rw [exec_segsend_of_admits admits, segFrames_of_short short]

/-- The control byte of frame 0 of a long send (R72). -/
theorem controlByte_first (t : BitVec 5) : controlByte true false false t = 0x80#8 ||| t.setWidth 8 := rfl

/-- The control byte of a later frame, its start bit clear (R72). -/
theorem controlByte_next (isLast toggle : Prop) [Decidable isLast] [Decidable toggle] (t : BitVec 5) :
    controlByte false (decide isLast) (decide toggle) t =
      (if isLast then 0x40#8 else 0x00#8) ||| (if toggle then 0x20#8 else 0x00#8) ||| t.setWidth 8 := by
  simp only [controlByte, decide_eq_true_eq, Bool.false_eq_true, if_false, BitVec.zero_or]

/-- Settles O45: the two cases of `segFrames_getElem?_cases` that a send of several frames has. -/
theorem longSendLayout : Obligations.LongSendLayout := by
  intro id sig payload s long admits
  have count := length_segFrames_of_long long s.params.crc id sig s.seqCtr
  have several : 2 ≤ segCount payload.length := by
    have bounds := segCount_bounds payload.length
    omega
  refine ⟨_, _, _, exec_segsend_of_admits admits id sig, rfl, rfl, several, count, ?_, ?_⟩
  · have frame := List.getElem?_eq_getElem ((Nat.zero_lt_of_lt several).trans_eq count.symm)
    rcases segFrames_getElem?_cases frame with ⟨one, -, -⟩ | ⟨-, -, first⟩ | ⟨later, -, -⟩
    · omega
    · rw [frame, first, segFirst, controlByte_first]
      rfl
    · omega
  · intro i later inRange
    have frame := List.getElem?_eq_getElem (inRange.trans_eq count.symm)
    rcases segFrames_getElem?_cases frame with ⟨one, -, -⟩ | ⟨-, zero, -⟩ | ⟨-, -, next⟩
    · omega
    · omega
    · rw [frame, next, segNext, slice_min, controlByte_next, count]
      rfl

/-! ## Frame lengths -/

/-- Frame `i` of a long send has 8 data bytes, or what is left of the carried bytes and a control byte (R75). -/
theorem length_data_segFrames_of_long {p : CrcParams} {id : Ident} {sig : Signature} {payload : List Byte}
    {t : BitVec 5} {i : ℕ} {f : Frame} (long : 8 ≤ payload.length)
    (frame : (segFrames p id sig payload t)[i]? = some f) :
    f.data.length = min 7 (payload.length + 2 - 7 * i) + 1 := by
  rw [length_data_segFrames frame, length_body_segFrames_of_long long frame]

theorem length_data_of_mem_segFrames {p : CrcParams} {id : Ident} {sig : Signature} {payload : List Byte}
    {t : BitVec 5} {f : Frame} (emitted : f ∈ segFrames p id sig payload t) :
    1 ≤ f.data.length ∧ f.data.length ≤ 8 := by
  by_cases short : payload.length ≤ 7
  · rw [segFrames_of_short short, List.mem_singleton] at emitted
    rw [emitted, List.length_append, List.length_singleton]
    omega
  · obtain ⟨i, frame⟩ := List.mem_iff_getElem?.1 emitted
    rw [length_data_segFrames_of_long (by omega) frame]
    omega

/-- A list mapped by what depends on the index alone. -/
theorem map_eq_map_range {α β : Type} {l : List α} {g : α → β} {h : ℕ → β}
    (byIndex : ∀ i x, l[i]? = some x → g x = h i) : l.map g = (List.range l.length).map h := by
  apply List.ext_getElem
  · rw [List.length_map, List.length_map, List.length_range]
  · intro i inRange _
    rw [List.length_map] at inRange
    rw [List.getElem_map, List.getElem_map, List.getElem_range]
    exact byIndex i _ (List.getElem?_eq_getElem inRange)

/-- The lengths of the frames of a long send: 8, but for the last (R75). -/
theorem map_length_data_segFrames_of_long {payload : List Byte} (long : 8 ≤ payload.length) (p : CrcParams) (id : Ident)
    (sig : Signature) (t : BitVec 5) :
    (segFrames p id sig payload t).map (fun f => f.data.length) =
      List.replicate (segCount payload.length - 1) 8 ++ [payload.length + 10 - 7 * segCount payload.length] := by
  have bounds := segCount_bounds payload.length
  obtain ⟨m, count⟩ : ∃ m, segCount payload.length = m + 1 := ⟨segCount payload.length - 1, by omega⟩
  rw [map_eq_map_range fun i f frame => length_data_segFrames_of_long long frame, length_segFrames_of_long long,
    count, List.range_succ, List.map_append]
  congr 1
  · refine List.eq_replicate_iff.2 ⟨by simp, ?_⟩
    intro l member
    obtain ⟨i, inRange, rfl⟩ := List.mem_map.1 member
    have below := List.mem_range.1 inRange
    omega
  · rw [List.map_singleton, List.singleton_inj]
    omega

/-- Settles O47: the frames of `segFrames_of_short` and the lengths of `map_length_data_segFrames_of_long`, which sum to
`L + 2` carried bytes and one control byte for each frame. -/
theorem frameCountsAndLengths : Obligations.FrameCountsAndLengths := by
  intro id sig payload s admits
  refine ⟨_, _, exec_segsend_of_admits admits id sig, rfl, ?_, ?_, fun _ => length_data_of_mem_segFrames⟩
  · intro short
    rw [segFrames_of_short short, List.map_singleton, List.length_append, List.length_singleton]
  · intro long
    have bounds := segCount_bounds payload.length
    rw [map_length_data_segFrames_of_long long, length_segFrames_of_long long]
    refine ⟨rfl, rfl, ?_⟩
    rw [List.sum_append, List.sum_replicate, List.sum_singleton, smul_eq_mul]
    omega

/-! ## The frames give the payload back -/

/-- Consecutive sevens of a list, put together again. -/
theorem flatMap_range_sevens {α : Type} (l : List α) (n : ℕ) :
    ((List.range n).flatMap fun i => (l.drop (7 * i)).take 7) = l.take (7 * n) := by
  induction n with
  | zero => rfl
  | succ n ih =>
    rw [List.range_succ, List.flatMap_append, ih, List.flatMap_singleton, Nat.mul_succ, List.take_add]

/-- Nothing is lost between the frames of a long send. -/
theorem flatMap_body_segFrames {payload : List Byte} (long : 8 ≤ payload.length) (p : CrcParams) (id : Ident)
    (sig : Signature) (t : BitVec 5) : (segFrames p id sig payload t).flatMap body = carried p sig payload := by
  have bounds := segCount_bounds payload.length
  rw [List.flatMap_def, map_eq_map_range fun i f => body_segFrames_of_long long, ← List.flatMap_def,
    flatMap_range_sevens, length_segFrames_of_long long]
  exact List.take_of_length_le bounds.1

/-- A word is its low byte and 256 times its high byte. -/
theorem toNat_low_add_high (c : U16) : (c.extractLsb' 0 8).toNat + 256 * (c.extractLsb' 8 8).toNat = c.toNat := by
  have := c.isLt
  simp only [BitVec.extractLsb'_toNat, Nat.shiftRight_eq_div_pow]
  omega

/-- The marks of frame `i` of a send: identifier, counter, and the three bits of its place (R77 (c)). -/
theorem marks_segFrames {p : CrcParams} {id : Ident} {sig : Signature} {payload : List Byte} {t : BitVec 5}
    {i : ℕ} {f : Frame} (frame : (segFrames p id sig payload t)[i]? = some f) :
    f.id = id ∧ counter f = t ∧ (starts f ↔ i = 0) ∧ (ends f ↔ i + 1 = (segFrames p id sig payload t).length) ∧
      (toggles f ↔ i % 2 = 1) := by
  refine ⟨id_of_mem_segFrames (List.mem_of_getElem? frame), counter_segFrames frame, ?_, ?_, ?_⟩
  · rw [starts, control_segFrames frame, controlByte_start, decide_eq_true_iff]
  · rw [ends, control_segFrames frame, controlByte_end, decide_eq_true_iff]
  · rw [toggles, control_segFrames frame, controlByte_toggle, decide_eq_true_iff]

/-- Settles O49: the frames put together are `carried`, which is two checksum bytes before the payload, and
`marks_segFrames` gives their order. -/
theorem theFramesGiveThePayloadBack : Obligations.TheFramesGiveThePayloadBack := by
  constructor
  · intro id sig payload s long admits
    have completes := exec_segsend_of_admits admits id sig
    have bounds := segCount_bounds payload.length
    have count := length_segFrames_of_long long s.params.crc id sig s.seqCtr
    have joined := flatMap_body_segFrames long s.params.crc id sig s.seqCtr
    obtain ⟨f0, fs, frames⟩ := List.exists_cons_of_ne_nil (segFrames_ne_nil s.params.crc id sig payload s.seqCtr)
    have frame0 : (segFrames s.params.crc id sig payload s.seqCtr)[0]? = some f0 := by rw [frames]; rfl
    have first : body f0 = (carried s.params.crc sig payload).take 7 := body_segFrames_of_long long frame0
    have data : f0.data = (carried s.params.crc sig payload).take 7 ++ [Safety.control f0] := by
      rw [← first]
      exact congrArg Frame.data (eq_body_append_control frame0)
    rw [frames] at completes count joined
    rw [List.length_cons] at count
    refine ⟨f0, fs, completes, ?_, ?_, ?_, ?_, ?_⟩
    · rw [List.length_cons]
      omega
    · omega
    · have atLeastTwo : 2 ≤ (body f0).length := by
        rw [first, List.length_take, length_carried]
        omega
      rw [← List.drop_append_of_le_length atLeastTwo, ← List.flatMap_cons, joined]
      rfl
    · exact ⟨_, _, by rw [data]; rfl, by rw [data]; rfl, toNat_low_add_high _⟩
    · intro i f frame
      rw [← frames] at frame
      obtain ⟨ident, carries, opens, closes, alternates⟩ := marks_segFrames frame
      rw [frames, List.length_cons, Nat.succ_inj] at closes
      exact ⟨ident, carries, opens, closes, alternates⟩
  · intro id sig payload s short admits
    have completes := exec_segsend_of_admits admits id sig
    have only := segFrames_of_short short s.params.crc id sig s.seqCtr
    have frame : (segFrames s.params.crc id sig payload s.seqCtr)[0]? =
        some ⟨id, payload ++ [0xC0#8 ||| s.seqCtr.setWidth 8]⟩ := by rw [only]; rfl
    obtain ⟨ident, carries, opens, closes, alternates⟩ := marks_segFrames frame
    rw [only] at completes closes
    exact ⟨_, _, completes, rfl, ident, opens.2 rfl, closes.2 rfl, fun odd => absurd (alternates.1 odd) (by decide),
      carries, body_append _ _ _⟩

/-! ## What a send does not look at -/

/-- The identifier is only copied into the frames (R76). -/
theorem segFrames_map_id (p : CrcParams) (id id' : Ident) (sig : Signature) (payload : List Byte) (t : BitVec 5) :
    (segFrames p id sig payload t).map (fun f => { f with id := id' }) = segFrames p id' sig payload t := by
  unfold segFrames
  split
  · rfl
  · rw [segMulti, List.map_cons, List.map_map]
    rfl

/-- Settles O52: `segFrames` has no accumulator to read, only copies the identifier, and reads the signature only for a
checksum; the refusal reads the payload's length alone. -/
theorem segsendIgnoresAccumulatorAndIdentifier : Obligations.SegsendIgnoresAccumulatorAndIdentifier := by
  intro id id' sig sig' payload s a
  rcases admits_or_lt s.params payload.length with admits | ⟨m, finite, longer⟩
  · refine ⟨_, exec_segsend_of_admits admits id sig, rfl,
      exec_segsend_of_admits (s := { s with crcAcc := a }) admits id sig, ?_, ?_⟩
    · intro short
      rw [exec_segsend_of_admits admits, segFrames_of_short short, segFrames_of_short short]
    · intro fs returned
      cases returned
      rw [exec_segsend_of_admits admits, segFrames_map_id]
  · refine ⟨_, exec_segsend_of_lt finite longer id sig, rfl,
      exec_segsend_of_lt (s := { s with crcAcc := a }) finite longer id sig,
      fun _ => exec_segsend_of_lt finite longer id sig', ?_⟩
    intro fs returned
    cases returned

/-! ## The log -/

/-- A command with the select code of `SEGSEND` decodes to one (R44). -/
theorem decode_of_op_segsend {c : Command} (send : c.op = 0x5#4) :
    decode c = .ok (.segsend c.operands.id c.operands.sig c.operands.payload) := by
  obtain ⟨op, l⟩ := c
  cases send
  rfl

/-- Everything a step can do to the log: keep it, empty it, or append the frames of a send (R13, R70). -/
theorem step_txLog {s t : State} (h : step s = .next t) :
    t.txLog = s.txLog ∨ t.txLog = [] ∨
      ∃ id sig payload, t.txLog = s.txLog ++ segFrames s.params.crc id sig payload s.seqCtr := by
  rcases step_seqCtr_txLog h with ⟨-, kept⟩ | ⟨-, -, -, empty⟩ | ⟨c, rest, fs, command, send, -, appended, returned⟩
  · exact .inl kept
  · exact .inr (.inl empty)
  · have completes := (stepRunsTheDecodedOperation s c rest _ command (decode_of_op_segsend send)).symm.trans h
    obtain rfl := frames_of_exec_segsend completes returned
    exact .inr (.inr ⟨_, _, _, appended⟩)

/-- Settles O17: of the cases of `step_txLog`, only a send adds frames, and they have 1 to 8 data bytes. -/
theorem everyStepKeepsFramesWithinEightBytes : Obligations.EveryStepKeepsFramesWithinEightBytes := by
  constructor
  · intro s t fit h f logged
    rcases step_txLog h with kept | empty | ⟨id, sig, payload, appended⟩
    · rw [kept] at logged
      exact fit f logged
    · rw [empty] at logged
      exact absurd logged List.not_mem_nil
    · rw [appended, List.mem_append] at logged
      exact logged.elim (fit f) length_data_of_mem_segFrames
  · intro s fit f logged
    obtain ⟨-, atMostEight⟩ := fit f logged
    exact decide_eq_true (by omega)

end Sys2Proof.Machine
end

section
/-! PROOFS. The header codec: both layouts lie in the low 29 bits of the container, so a header is packed and unpacked as the
identifier it is (43_header_codec.md R80 to R84, R87; 30_encoding.md R31 to R33, R41, R42, R46). -/

namespace Sys2Proof.Machine

/-! ## The low 29 bits of a container -/

theorem getLsbD_low29 (i : ℕ) : (0x1FFFFFFF#32).getLsbD i = decide (i < 29) := by
  have mask : 0x1FFFFFFF#32 = BitVec.ofNat 32 (2 ^ 29 - 1) := rfl
  rw [mask, BitVec.getLsbD_ofNat, Nat.testBit_two_pow_sub_one, ← Bool.decide_and]
  exact decide_eq_decide.2 (by omega)

/-- The mask keeps the identifier of a container and nothing else (R46). -/
theorem and_low29_eq_setWidth_identOfHeader (w : U32) : w &&& 0x1FFFFFFF#32 = (identOfHeader w).setWidth 32 := by
  apply BitVec.eq_of_getLsbD_eq
  intro i inContainer
  simp only [identOfHeader, BitVec.getLsbD_and, getLsbD_low29, BitVec.getLsbD_setWidth, BitVec.getLsbD_extractLsb',
    inContainer, decide_true, Bool.true_and, Nat.zero_add, Bool.and_comm]

theorem identOfHeader_and_low29 (w : U32) : identOfHeader (w &&& 0x1FFFFFFF#32) = identOfHeader w := by
  rw [and_low29_eq_setWidth_identOfHeader, identOfHeader, BitVec.extractLsb'_setWidth_of_le (by omega),
    BitVec.extractLsb'_eq_self]

theorem and_low29_eq_and_low29_iff (w w' : U32) :
    w &&& 0x1FFFFFFF#32 = w' &&& 0x1FFFFFFF#32 ↔ identOfHeader w = identOfHeader w' := by
  constructor
  · intro masked
    rw [← identOfHeader_and_low29 w, masked, identOfHeader_and_low29]
  · intro ident
    rw [and_low29_eq_setWidth_identOfHeader, ident, ← and_low29_eq_setWidth_identOfHeader]

theorem and_low29_eq_self_of_lt {w : U32} (below : w.toNat < 2 ^ 29) : w &&& 0x1FFFFFFF#32 = w := by
  apply BitVec.eq_of_toNat_eq
  exact (Nat.and_two_pow_sub_one_eq_mod w.toNat 29).trans (Nat.mod_eq_of_lt below)

theorem toNat_le_of_and_low29_eq_self {w : U32} (masked : w &&& 0x1FFFFFFF#32 = w) : w.toNat ≤ 0x1FFFFFFF := by
  rw [← masked, BitVec.toNat_and]
  exact Nat.and_le_right

/-! ## Fields -/

/-- A field that lies in the identifier sets no bit above it (R41). -/
theorem putField_and_low29 {n p : ℕ} (fits : p + n ≤ 29) (v : U32) :
    putField n p v &&& 0x1FFFFFFF#32 = putField n p v := by
  apply BitVec.eq_of_getLsbD_eq
  intro i _
  rw [BitVec.getLsbD_and, getLsbD_low29, getLsbD_putField]
  grind

/-- A field that lies in the identifier is read from the identifier alone (R42). -/
theorem getField_eq_extractLsb'_identOfHeader {n p : ℕ} (fits : p + n ≤ 29) (w : U32) :
    getField n p w = (identOfHeader w).extractLsb' p n := by
  rw [getField, identOfHeader, BitVec.extractLsb'_extractLsb'_of_le fits]

theorem toNat_getField (n p : ℕ) (w : U32) : (getField n p w).toNat = w.toNat / 2 ^ p % 2 ^ n := by
  rw [getField, BitVec.extractLsb'_toNat, Nat.shiftRight_eq_div_pow]

/-- Two neighbouring fields are one field. -/
theorem getField_append_getField {n m p q : ℕ} (adjacent : q = p + n) (w : U32) :
    getField m q w ++ getField n p w = getField (m + n) p w :=
  BitVec.extractLsb'_append_extractLsb'_eq_extractLsb' adjacent

/-! ## The broadcast layout -/

/-- The fields `HUPB` reads are those the identifier is joined of (R31). -/
theorem unpackBroadcast_eq_iff (w : U32) (h : BroadcastHeader) :
    unpackBroadcast w = h ↔ identOfHeader w = h.priority ++ h.serviceType ++ h.isService ++ h.sourceId := by
  constructor
  · rintro rfl
    dsimp only [unpackBroadcast]
    rw [getField_append_getField, getField_append_getField, getField_append_getField] <;> rfl
  · intro joined
    simp (disch := omega) only [unpackBroadcast, getField_eq_extractLsb'_identOfHeader, joined,
      BitVec.extractLsb'_append_eq_of_le, BitVec.extractLsb'_append_eq_right, Nat.reduceSub,
      BitVec.extractLsb'_eq_self]

theorem unpackBroadcast_and_low29 (w : U32) : unpackBroadcast (w &&& 0x1FFFFFFF#32) = unpackBroadcast w := by
  rw [unpackBroadcast_eq_iff, identOfHeader_and_low29, ← unpackBroadcast_eq_iff]

theorem packBroadcast_and_low29 (p t v a : U32) :
    packBroadcast p t v a &&& 0x1FFFFFFF#32 = packBroadcast p t v a := by
  simp (disch := omega) only [packBroadcast, BitVec.and_or_distrib_right, putField_and_low29]

theorem unpackBroadcast_packBroadcast (p t v a : U32) :
    unpackBroadcast (packBroadcast p t v a) = ⟨p.setWidth 5, t.setWidth 16, v.setWidth 1, a.setWidth 7⟩ :=
  (unpackBroadcast_eq_iff _ _).2 (identOfHeader_packBroadcast p t v a)

/-- In-range fields, each in a container of its own, packed. -/
def packBroadcastHeader (h : BroadcastHeader) : U32 :=
  packBroadcast (h.priority.setWidth 32) (h.serviceType.setWidth 32) (h.isService.setWidth 32) (h.sourceId.setWidth 32)

/-- Packing and unpacking are inverse to each other, up to the bits above the identifier (R84). -/
theorem packBroadcastHeader_eq_and_low29_iff (h : BroadcastHeader) (w : U32) :
    packBroadcastHeader h = w &&& 0x1FFFFFFF#32 ↔ unpackBroadcast w = h := by
  rw [packBroadcastHeader, ← packBroadcast_and_low29, and_low29_eq_and_low29_iff, identOfHeader_packBroadcast,
    unpackBroadcast_eq_iff, eq_comm]
  simp (disch := omega) only [BitVec.setWidth_setWidth_of_le, BitVec.setWidth_eq]

theorem exec_hpkb_eq_iff (h : BroadcastHeader) (s : State) (w : U32) :
    exec (.hpkb (h.priority.setWidth 32) (h.serviceType.setWidth 32) (h.isService.setWidth 32)
      (h.sourceId.setWidth 32)) s = .next { s with resp := some ⟨.ok, .packed w⟩ } ↔ packBroadcastHeader h = w := by
  rw [exec, execHpkb, ← packBroadcastHeader]
  simp [answer, respond]

/-- Settles O36: the four operands lie in the identifier, whose field at position 0 is not shifted. -/
theorem hpkbPacksTheBroadcastLayout : Obligations.HpkbPacksTheBroadcastLayout := by
  refine ⟨fun _ => rfl, fun p t v a s => ⟨packBroadcast p t v a, rfl, ?_,
    toNat_le_of_and_low29_eq_self (packBroadcast_and_low29 p t v a)⟩⟩
  simp [packBroadcast, putField]

/-- Settles O37: a field's number is `toNat_getField`, and `unpackBroadcast_and_low29` says that the upper bits are ignored. -/
theorem hupbReadsTheBroadcastLayout : Obligations.HupbReadsTheBroadcastLayout := by
  refine ⟨fun _ => rfl, fun w s => ⟨unpackBroadcast w, rfl, ?_, toNat_getField 5 24 w, toNat_getField 16 8 w,
    toNat_getField 1 7 w, ?_⟩⟩
  · rw [← unpackBroadcast_and_low29]
    rfl
  · rw [unpackBroadcast, toNat_getField, pow_zero, Nat.div_one]

/-- Settles O40: `packBroadcastHeader_eq_and_low29_iff`, where a word below 2^29 is its own masked word. -/
theorem broadcastPackIsABijection : Obligations.BroadcastPackIsABijection := by
  constructor
  · intro w s
    refine ⟨unpackBroadcast w, rfl, ?_⟩
    rw [exec_hpkb_eq_iff, packBroadcastHeader_eq_and_low29_iff]
  · intro w s below
    simp only [exec_hpkb_eq_iff]
    rw [← and_low29_eq_self_of_lt below]
    simp only [packBroadcastHeader_eq_and_low29_iff]
    exact existsUnique_eq'

/-! ## The unicast layout -/

/-- The fields `HUPU` reads are those the identifier is joined of (R32). -/
theorem unpackUnicast_eq_iff (w : U32) (g : UnicastHeader) :
    unpackUnicast w = g ↔ identOfHeader w =
      g.priority ++ g.serviceType ++ g.isRequest ++ g.destinationId ++ g.isService ++ g.sourceId := by
  constructor
  · rintro rfl
    dsimp only [unpackUnicast]
    rw [getField_append_getField, getField_append_getField, getField_append_getField, getField_append_getField,
      getField_append_getField] <;> rfl
  · intro joined
    simp (disch := omega) only [unpackUnicast, getField_eq_extractLsb'_identOfHeader, joined,
      BitVec.extractLsb'_append_eq_of_le, BitVec.extractLsb'_append_eq_right, Nat.reduceSub,
      BitVec.extractLsb'_eq_self]

theorem unpackUnicast_and_low29 (w : U32) : unpackUnicast (w &&& 0x1FFFFFFF#32) = unpackUnicast w := by
  rw [unpackUnicast_eq_iff, identOfHeader_and_low29, ← unpackUnicast_eq_iff]

theorem packUnicast_and_low29 (p t r d v a : U32) :
    packUnicast p t r d v a &&& 0x1FFFFFFF#32 = packUnicast p t r d v a := by
  simp (disch := omega) only [packUnicast, BitVec.and_or_distrib_right, putField_and_low29]

theorem unpackUnicast_packUnicast (p t r d v a : U32) :
    unpackUnicast (packUnicast p t r d v a) =
      ⟨p.setWidth 5, t.setWidth 8, r.setWidth 1, d.setWidth 7, v.setWidth 1, a.setWidth 7⟩ :=
  (unpackUnicast_eq_iff _ _).2 (identOfHeader_packUnicast p t r d v a)

/-- In-range fields, each in a container of its own, packed. -/
def packUnicastHeader (g : UnicastHeader) : U32 :=
  packUnicast (g.priority.setWidth 32) (g.serviceType.setWidth 32) (g.isRequest.setWidth 32)
    (g.destinationId.setWidth 32) (g.isService.setWidth 32) (g.sourceId.setWidth 32)

/-- Packing and unpacking are inverse to each other, up to the bits above the identifier (R84). -/
theorem packUnicastHeader_eq_and_low29_iff (g : UnicastHeader) (w : U32) :
    packUnicastHeader g = w &&& 0x1FFFFFFF#32 ↔ unpackUnicast w = g := by
  rw [packUnicastHeader, ← packUnicast_and_low29, and_low29_eq_and_low29_iff, identOfHeader_packUnicast,
    unpackUnicast_eq_iff, eq_comm]
  simp (disch := omega) only [BitVec.setWidth_setWidth_of_le, BitVec.setWidth_eq]

theorem exec_hpku_eq_iff (g : UnicastHeader) (s : State) (w : U32) :
    exec (.hpku (g.priority.setWidth 32) (g.serviceType.setWidth 32) (g.isRequest.setWidth 32)
      (g.destinationId.setWidth 32) (g.isService.setWidth 32) (g.sourceId.setWidth 32)) s =
      .next { s with resp := some ⟨.ok, .packed w⟩ } ↔ packUnicastHeader g = w := by
  rw [exec, execHpku, ← packUnicastHeader]
  simp [answer, respond]

/-- Settles O38: as for `HPKB`, with six operands. -/
theorem hpkuPacksTheUnicastLayout : Obligations.HpkuPacksTheUnicastLayout := by
  refine ⟨fun _ => rfl, fun p t r d v a s => ⟨packUnicast p t r d v a, rfl, ?_,
    toNat_le_of_and_low29_eq_self (packUnicast_and_low29 p t r d v a)⟩⟩
  simp [packUnicast, putField]

/-- Settles O39: as for `HUPB`, with six fields. -/
theorem hupuReadsTheUnicastLayout : Obligations.HupuReadsTheUnicastLayout := by
  refine ⟨fun _ => rfl, fun w s => ⟨unpackUnicast w, rfl, ?_, toNat_getField 5 24 w, toNat_getField 8 16 w,
    toNat_getField 1 15 w, toNat_getField 7 8 w, toNat_getField 1 7 w, ?_⟩⟩
  · rw [← unpackUnicast_and_low29]
    rfl
  · rw [unpackUnicast, toNat_getField, pow_zero, Nat.div_one]

/-- Settles O41: `packUnicastHeader_eq_and_low29_iff`, where a word below 2^29 is its own masked word. -/
theorem unicastPackIsABijection : Obligations.UnicastPackIsABijection := by
  constructor
  · intro w s
    refine ⟨unpackUnicast w, rfl, ?_⟩
    rw [exec_hpku_eq_iff, packUnicastHeader_eq_and_low29_iff]
  · intro w s below
    simp only [exec_hpku_eq_iff]
    rw [← and_low29_eq_self_of_lt below]
    simp only [packUnicastHeader_eq_and_low29_iff]
    exact existsUnique_eq'

/-! ## Both layouts -/

/-- Settles O42: the identifier of a packed word is its masked operands joined, and an unpack reads them from it. -/
theorem packThenUnpackMasksTheFields : Obligations.PackThenUnpackMasksTheFields := by
  constructor
  · intro p t v a s
    refine ⟨packBroadcast p t v a, rfl, ?_⟩
    rw [← unpackBroadcast_packBroadcast]
    rfl
  · intro p t r d v a s
    refine ⟨packUnicast p t r d v a, rfl, ?_⟩
    rw [← unpackUnicast_packUnicast]
    rfl

/-- Settles O43: the shared fields have one position and width in both layouts, and the three unicast fields are neighbours. -/
theorem bothLayoutsShareThreeFields : Obligations.BothLayoutsShareThreeFields := by
  intro w s
  refine ⟨unpackBroadcast w, unpackUnicast w, rfl, rfl, rfl, rfl, rfl, ?_⟩
  dsimp only [unpackBroadcast, unpackUnicast]
  rw [getField_append_getField, getField_append_getField] <;> rfl

end Sys2Proof.Machine
end

section
/-! PROOFS. The refusals: a command is refused with `ILLEGAL_OP`, refused with `TOO_LONG`, or performed, and its select code and
payload length say which (60_exceptions.md R91 to R95). -/

namespace Sys2Proof.Machine

open Sys2Proof.Safety

/-- A reserved select code is refused, and nothing but the response changes (R92). -/
theorem step_of_reserved {s : State} {c : Command} {rest : List HostInput} (presented : s.host = .command c :: rest)
    (reserved : 10 ≤ c.op.toNat) : step s = .next { s with host := rest, resp := some ⟨.illegalOp, .empty⟩ } := by
  rcases step_cases s with ⟨idle, -⟩ | ⟨_, reset, -⟩ | ⟨_, _, i, command, decoded, -⟩ | ⟨_, _, _, command, -, hstep⟩
  · cases presented.symm.trans idle
  · cases presented.symm.trans reset
  · cases presented.symm.trans command
    have assigned := selectCode_lt_ten i
    rw [← op_eq_selectCode_of_decode decoded] at assigned
    exact absurd assigned reserved.not_gt
  · cases presented.symm.trans command
    exact hstep

/-- Every operation but `SEGSEND` is performed, whatever its operands (R91). -/
theorem exec_ok_of_ne_segsend {i : Instr} (notSend : selectCode i ≠ 0x5#4) (s : State) :
    ∃ t r, exec i s = .next t ∧ t.resp = some ⟨.ok, r⟩ := by
  cases i
  case segsend => exact absurd rfl notSend
  case f16enc val =>
    by_cases nonFinite : f32NonFinite val = true
    · exact ⟨_, _, if_pos nonFinite, rfl⟩
    · exact ⟨_, _, if_neg nonFinite, rfl⟩
  all_goals exact ⟨_, _, rfl, rfl⟩

/-- Everything the step on a command can do. The three cases exclude each other: a reserved select code is no `SEGSEND`, and
`PAYLOAD_MAX` admits a payload or does not (R95). -/
theorem step_command_cases {s : State} {c : Command} {rest : List HostInput}
    (presented : s.host = .command c :: rest) :
    (10 ≤ c.op.toNat ∧ step s = .next { s with host := rest, resp := some ⟨.illegalOp, .empty⟩ }) ∨
    (c.op = 0x5#4 ∧ ¬ Admits s.params c.operands.payload.length ∧
      step s = .next { s with host := rest, resp := some ⟨.tooLong, .empty⟩ }) ∨
    (c.op.toNat < 10 ∧ (c.op = 0x5#4 → Admits s.params c.operands.payload.length) ∧
      ∃ t r, step s = .next t ∧ t.resp = some ⟨.ok, r⟩) := by
  rcases decode_cases c with ⟨assigned, i, decoded⟩ | ⟨reserved, -⟩
  · by_cases send : c.op = 0x5#4
    · have runs := stepRunsTheDecodedOperation s c rest _ presented (decode_of_op_segsend send)
      rcases admits_or_lt s.params c.operands.payload.length with admits | ⟨m, finite, longer⟩
      · have completes := exec_segsend_of_admits (s := { s with host := rest }) admits c.operands.id c.operands.sig
        exact .inr (.inr ⟨assigned, fun _ => admits, _, _, runs.trans completes, rfl⟩)
      · have refuses := exec_segsend_of_lt (s := { s with host := rest }) finite longer c.operands.id c.operands.sig
        exact .inr (.inl ⟨send, fun admits => longer.not_ge (admits m finite), runs.trans refuses⟩)
    · have notSend : selectCode i ≠ 0x5#4 := op_eq_selectCode_of_decode decoded ▸ send
      obtain ⟨t, r, performed, answered⟩ := exec_ok_of_ne_segsend notSend { s with host := rest }
      have runs := stepRunsTheDecodedOperation s c rest i presented decoded
      exact .inr (.inr ⟨assigned, fun isSend => absurd isSend send, t, r, runs.trans performed, answered⟩)
  · exact .inl ⟨reserved, step_of_reserved presented reserved⟩

/-- Settles O5: the conditions of the three cases of `step_command_cases` exclude each other, so each status has its own. -/
theorem aCommandMeetsAtMostOneRefusal : Obligations.ACommandMeetsAtMostOneRefusal := by
  refine ⟨⟨rfl, rfl, rfl⟩, fun s c rest presented => ?_⟩
  rcases step_command_cases presented with ⟨reserved, hstep⟩ | ⟨send, notAdmitted, hstep⟩ |
    ⟨assigned, admitted, t, r, hstep, answered⟩
  · have notSend : c.op ≠ 0x5#4 := fun send => absurd reserved (by rw [send]; decide)
    exact ⟨_, _, hstep, rfl, by decide, iff_of_true rfl reserved, by simp [notSend], fun _ => rfl⟩
  · have notReserved : ¬ 10 ≤ c.op.toNat := by rw [send]; decide
    exact ⟨_, _, hstep, rfl, by decide, by simp [notReserved], iff_of_true rfl ⟨send, notAdmitted⟩, fun _ => rfl⟩
  · refine ⟨t, _, hstep, answered, by simp [Status.code], by simp [assigned], ?_, fun refused => absurd rfl refused⟩
    exact iff_of_false (by simp) fun ⟨send, notAdmitted⟩ => notAdmitted (admitted send)

end Sys2Proof.Machine
end

section
/-! PROOFS. What a session of commands and resets keeps: every step answers a next state, a reset starts the history of sends
again, and every step keeps it (70_reset_and_hazards.md). -/

namespace Sys2Proof.Machine

open Sys2Proof.Safety

/-! ## The history of sends -/

/-- The frames a step returns for a command with the select code of `SEGSEND` are those of `segFrames` at the command's
operands and the counter before the step (R70). -/
theorem frames_of_step_segsend {s t : State} {c : Command} {rest : List HostInput} {fs : List Frame}
    (presented : s.host = .command c :: rest) (send : c.op = 0x5#4) (h : step s = .next t)
    (returned : t.resp = some ⟨.ok, .frames fs⟩) :
    fs = segFrames s.params.crc c.operands.id c.operands.sig c.operands.payload s.seqCtr :=
  frames_of_exec_segsend (s := { s with host := rest })
    ((stepRunsTheDecodedOperation s c rest _ presented (decode_of_op_segsend send)).symm.trans h) returned

theorem openings_append (log log' : List Frame) : openings (log ++ log') = openings log ++ openings log' :=
  List.filter_append log log'

/-- Of the frames of a send only the first opens, and it carries the counter of the send (R35, R47, R106). -/
theorem openings_segFrames (p : CrcParams) (id : Ident) (sig : Signature) (payload : List Byte) (t : BitVec 5) :
    ∃ f, openings (segFrames p id sig payload t) = [f] ∧ counter f = t := by
  obtain ⟨f, later, frames⟩ := List.exists_cons_of_ne_nil (segFrames_ne_nil p id sig payload t)
  have first : (segFrames p id sig payload t)[0]? = some f := by rw [frames, List.getElem?_cons_zero]
  obtain ⟨-, carries, opens, -⟩ := marks_segFrames first
  have laterDoNotOpen : ∀ g ∈ later, ¬ starts g = true := by
    intro g emitted
    obtain ⟨i, frame⟩ := List.mem_iff_getElem?.1 emitted
    rw [← List.getElem?_cons_succ (a := f), ← frames] at frame
    obtain ⟨-, -, opensAtZero, -⟩ := marks_segFrames frame
    exact fun start => absurd (opensAtZero.1 start) i.succ_ne_zero
  refine ⟨f, ?_, carries⟩
  rw [frames, openings, List.filter_cons_of_pos (opens.2 rfl), List.filter_eq_nil_iff.2 laterDoNotOpen]

/-- The next send of a log that holds `n` sends is the `n`-th, counting from 0, and must carry `n mod 32`, which is what
the counter holds (R74, R106). -/
theorem countsSends_of_send {s t : State} {fs : List Frame} {f : Frame} (counts : CountsSends s)
    (opening : openings fs = [f]) (carries : counter f = s.seqCtr) (appended : t.txLog = s.txLog ++ fs)
    (counted : t.seqCtr = s.seqCtr + 1#5) : CountsSends t := by
  obtain ⟨inOrder, number⟩ := counts
  rw [CountsSends, appended, openings_append, opening, List.length_append, List.length_singleton]
  constructor
  · rw [List.map_append, inOrder, List.range_succ, List.map_append, List.map_singleton, List.map_singleton, carries,
      number]
  · rw [counted, number, BitVec.ofNat_add]

/-- Settles O16: a step keeps the counter and the log, or empties both, or is a send, which opens once, under the counter it
then advances. -/
theorem everyStepKeepsTheSendCount : Obligations.EveryStepKeepsTheSendCount := by
  intro s t counts h
  rcases step_seqCtr_txLog h with ⟨sameCounter, sameLog⟩ | ⟨-, -, zero, empty⟩ |
    ⟨c, rest, fs, command, send, counted, appended, returned⟩
  · rwa [CountsSends, sameCounter, sameLog]
  · rw [CountsSends, zero, empty]
    exact ⟨rfl, rfl⟩
  · obtain rfl := frames_of_step_segsend command send h returned
    obtain ⟨f, opening, carries⟩ :=
      openings_segFrames s.params.crc c.operands.id c.operands.sig c.operands.payload s.seqCtr
    exact countsSends_of_send counts opening carries appended counted

/-! ## Totality and reset -/

/-- Settles O8: three of the cases of `step_cases` name the next state, and every command has a response and so a next state
(`aCommandMeetsAtMostOneRefusal`). That idle steps and refusals are next states is assumptions 4 and 12. -/
theorem everyStepAnswersANextState : Obligations.EveryStepAnswersANextState := by
  intro s
  rcases step_cases s with ⟨-, idle⟩ | ⟨_, -, resets⟩ | ⟨c, rest, -, command, -, -⟩ | ⟨_, _, _, -, -, refuses⟩
  · exact ⟨_, idle⟩
  · exact ⟨_, resets⟩
  · obtain ⟨t, _, answers, -⟩ := aCommandMeetsAtMostOneRefusal.2 s c rest command
    exact ⟨t, answers⟩
  · exact ⟨_, refuses⟩

/-- Settles O6: of the cases of `step_cases`, only the reset agrees with the host's input, and the value left in `crc_acc` is
the draw. The cleared response and the advanced counter of draws are assumptions 5 and 10. -/
theorem hostResetRestartsTheSession : Obligations.HostResetRestartsTheSession := by
  intro s rest presented
  rcases step_cases s with ⟨idle, -⟩ | ⟨_, reset, hstep⟩ | ⟨_, _, _, command, -, -⟩ | ⟨_, _, _, command, -, -⟩
  · cases presented.symm.trans idle
  · cases presented.symm.trans reset
    exact ⟨_, hstep⟩
  · cases presented.symm.trans command
  · cases presented.symm.trans command

end Sys2Proof.Machine
end
